-- ==== Sys2Proof/Word.lean ====
section
/-!
DEFINITION. The word types of the datapath. Rule R10: every datapath value is an unsigned integer of a stated
width (`UInt8`, `UInt5`, `UInt32`, and the smaller widths of rule R26), so each is a bit vector of that width.
-/

namespace Sys2Proof

/-- A byte: a register value, a command byte, a status byte (R10). -/
abbrev Byte := BitVec 8

/-- A register address, `UInt5` (R10, R70). -/
abbrev Addr := BitVec 5

/-- A packed configuration, `UInt32` (R10, R113). -/
abbrev Cfg := BitVec 32

/-- A REQ header, 16 bits (R110). -/
abbrev Header := BitVec 16

/-- The payload of a status byte, `UInt6` (R107). -/
abbrev Payload := BitVec 6

/-- The eight positions of an exchange buffer (R24). -/
abbrev Bytes8 := Vector Byte 8

end Sys2Proof
end

