-- ==== Sys2Proof/Config.lean ====
section
/-!
DEFINITION. What one instance of the block fixes (R6): the constants the spec makes normative, the parameters it leaves
open with their candidate values, the register LAYOUT, and the free values: the answers of the environment that nothing
constrains (R72), as opaque constants.
-/

namespace Sys2Proof

/-! ### Names of the register space -/

/-- The six registers the IC presents (R35). -/
inductive RegName
  | fault | diag | ic1 | ic2 | ic3 | ic4
  deriving DecidableEq, Repr

/-- The field names a LAYOUT may use: those of R40 to R45, `rsvd` for any reserved field, and `other n` for a field beyond
them, since the source's "etc." may name further ones (N1 of 91_not_in_source.md). That such a field is known by a number
is the model's choice: log 28. -/
inductive FieldName
  | rsvd | faultG | otw | uvlo | cpuv | ocp | tsd | ol
  | ol1 | ol2 | itrip1 | itrip2 | ocpH1 | ocpL1 | ocpH2 | ocpL2
  | toff | spiIn | sr | mode
  | itripRep | tsdMode | otwRep | disCpuv | ocpTretry | ocpMode
  | clrFlt | lock | out1Dis | out2Dis | enIn1 | phIn2
  | enOlp | olpDly | enOla | itripLvl | disItrip
  | other (n : Nat)
  deriving DecidableEq, Repr

/-! ### Meanings of the enumeration codes (R46, R47) -/

/-- The bridge modes of MODE (R46). -/
inductive BridgeMode
  | phEn | pwm | independentHalfBridge | outputsDisabled
  deriving DecidableEq, Repr

/-- The overcurrent responses of OCP_MODE (R47). -/
inductive OcpMode
  | latchedFault | automaticRetry | reportOnly | disabled
  deriving DecidableEq, Repr

/-- Where DIS_ITRIP disables the current regulation (R47). -/
inductive ItripDisable
  | none | out1 | out2 | both
  deriving DecidableEq, Repr

/-- What an enumeration code can mean (R46, R47, R171). Which code carries which meaning, and which rise times, off-times,
retry times and trip levels there are, is part of LAYOUT (R6, D19, GK6, GK7). -/
inductive Meaning
  /-- MODE -/
  | bridge (m : BridgeMode)
  /-- SR, in tenths of a V/µs -/
  | riseTime (tenths : Nat)
  /-- TOFF, in µs -/
  | offTime (us : Nat)
  /-- OCP_MODE -/
  | overcurrent (m : OcpMode)
  /-- OCP_TRETRY, in µs -/
  | retryTime (us : Nat)
  /-- LOCK: unlock -/
  | unlock
  /-- LOCK: lock -/
  | lock
  /-- LOCK: no effect; keeps the code (R171) -/
  | noEffect (code : Byte)
  /-- ITRIP_LVL, in tenths of an A -/
  | tripLevel (tenths : Nat)
  /-- DIS_ITRIP -/
  | regulation (m : ItripDisable)
  /-- of an enumeration the spec does not name (log 28) -/
  | other (n : Nat)
  deriving DecidableEq, Repr

/-- What a LAYOUT row holds (R39). An enumeration's table gives the meanings of the codes 0, 1, 2, ... in order. -/
inductive FieldKind
  | flag
  | enum (table : List Meaning)
  | reserved
  deriving DecidableEq, Repr

/-- One row of LAYOUT: `(register, field, hi, lo, kind)` (R39). -/
structure LayoutRow where
  reg   : RegName
  field : FieldName
  hi    : Nat
  lo    : Nat
  kind  : FieldKind
  deriving DecidableEq, Repr

/-- A register LAYOUT, a parameter of the block: rows and enumeration tables (R6, R39). Which of these lists a block may
have says `Machine.layoutOk`. -/
abbrev Layout := List LayoutRow

namespace Config

/-! ### Constants the source fixes (R6) -/

/-- `ADDR_BITS` (R6). -/
def addrBits : Nat := 5
/-- `REG_WIDTH` (R6). -/
def regWidth : Nat := 8
/-- `NUM_REGS` (R6). -/
def numRegs : Nat := 6
/-- `FRAME_BYTES` (R6). -/
def frameBytes : Nat := 2
/-- `STATUS_OK` = 0xC0, the only status byte that means "no fault" (R6, R147). -/
def statusOk : Byte := 0xC0#8
/-- `DUMMY_BYTE` = 0x00, decided by the spec (R6, R102, D5). Log 18. -/
def dummyByte : Byte := 0x00#8

/-! ### The enumeration tables of the default LAYOUT (R46, R47)
General knowledge of the spec's, except the meanings PWM, 10.8 V/µs, 40 µs and 6.5 A: log 19. -/

/-- MODE (R46). -/
def tableMode : List Meaning :=
  [.bridge .phEn, .bridge .pwm, .bridge .independentHalfBridge, .bridge .outputsDisabled]
/-- SR (R46). -/
def tableSr : List Meaning := [532, 340, 183, 130, 108, 79, 53, 26].map .riseTime
/-- TOFF (R46). -/
def tableToff : List Meaning := [20, 40, 60, 80].map .offTime
/-- OCP_MODE (R47). -/
def tableOcpMode : List Meaning := [OcpMode.latchedFault, .automaticRetry, .reportOnly, .disabled].map .overcurrent
/-- OCP_TRETRY (R47). -/
def tableOcpTretry : List Meaning := [500, 1000, 2000, 4000].map .retryTime
/-- LOCK (R47, R171). -/
def tableLock : List Meaning :=
  [.noEffect 0b000#8, .noEffect 0b001#8, .noEffect 0b010#8, .unlock,
   .noEffect 0b100#8, .noEffect 0b101#8, .lock, .noEffect 0b111#8]
/-- ITRIP_LVL (R47). -/
def tableItripLvl : List Meaning := [40, 54, 65, 70].map .tripLevel
/-- DIS_ITRIP (R47). -/
def tableDisItrip : List Meaning := [ItripDisable.none, .out1, .out2, .both].map .regulation

/-! ### The rows of the default LAYOUT (R40 to R45)
PRESUMED by the spec itself (general knowledge) for every register but FAULT: log 19. -/

/-- FAULT (R40). -/
def layoutFault : Layout :=
  [⟨.fault, .rsvd, 7, 7, .reserved⟩, ⟨.fault, .faultG, 6, 6, .flag⟩, ⟨.fault, .otw, 5, 5, .flag⟩,
   ⟨.fault, .uvlo, 4, 4, .flag⟩, ⟨.fault, .cpuv, 3, 3, .flag⟩, ⟨.fault, .ocp, 2, 2, .flag⟩,
   ⟨.fault, .tsd, 1, 1, .flag⟩, ⟨.fault, .ol, 0, 0, .flag⟩]

/-- DIAG (R41). -/
def layoutDiag : Layout :=
  [⟨.diag, .ol1, 7, 7, .flag⟩, ⟨.diag, .ol2, 6, 6, .flag⟩, ⟨.diag, .itrip1, 5, 5, .flag⟩,
   ⟨.diag, .itrip2, 4, 4, .flag⟩, ⟨.diag, .ocpH1, 3, 3, .flag⟩, ⟨.diag, .ocpL1, 2, 2, .flag⟩,
   ⟨.diag, .ocpH2, 1, 1, .flag⟩, ⟨.diag, .ocpL2, 0, 0, .flag⟩]

/-- IC1 (R42). -/
def layoutIc1 : Layout :=
  [⟨.ic1, .toff, 7, 6, .enum tableToff⟩, ⟨.ic1, .spiIn, 5, 5, .flag⟩, ⟨.ic1, .sr, 4, 2, .enum tableSr⟩,
   ⟨.ic1, .mode, 1, 0, .enum tableMode⟩]

/-- IC2 (R43). -/
def layoutIc2 : Layout :=
  [⟨.ic2, .itripRep, 7, 7, .flag⟩, ⟨.ic2, .tsdMode, 6, 6, .flag⟩, ⟨.ic2, .otwRep, 5, 5, .flag⟩,
   ⟨.ic2, .disCpuv, 4, 4, .flag⟩, ⟨.ic2, .ocpTretry, 3, 2, .enum tableOcpTretry⟩,
   ⟨.ic2, .ocpMode, 1, 0, .enum tableOcpMode⟩]

/-- IC3 (R44). -/
def layoutIc3 : Layout :=
  [⟨.ic3, .clrFlt, 7, 7, .flag⟩, ⟨.ic3, .lock, 6, 4, .enum tableLock⟩, ⟨.ic3, .out1Dis, 3, 3, .flag⟩,
   ⟨.ic3, .out2Dis, 2, 2, .flag⟩, ⟨.ic3, .enIn1, 1, 1, .flag⟩, ⟨.ic3, .phIn2, 0, 0, .flag⟩]

/-- IC4 (R45). -/
def layoutIc4 : Layout :=
  [⟨.ic4, .rsvd, 7, 7, .reserved⟩, ⟨.ic4, .enOlp, 6, 6, .flag⟩, ⟨.ic4, .olpDly, 5, 5, .flag⟩,
   ⟨.ic4, .enOla, 4, 4, .flag⟩, ⟨.ic4, .itripLvl, 3, 2, .enum tableItripLvl⟩,
   ⟨.ic4, .disItrip, 1, 0, .enum tableDisItrip⟩]

/-- The default LAYOUT: the rows of R40 to R45 with the tables of R46 and R47 in them (R6, R39). -/
def defaultLayout : Layout :=
  layoutFault ++ layoutDiag ++ layoutIc1 ++ layoutIc2 ++ layoutIc3 ++ layoutIc4

end Config

/-- The parameters R6 leaves open, fixed at reset for the life of the instance (R370). They are not state (R20); the
model carries them in one field of State that no step changes, so that a statement about every state is about every
instance (log 1). Which values an instance may have says `Machine.paramsOk`. -/
structure Params where
  /-- `HAS_SLEEP_PIN` -/
  hasSleepPin   : Bool
  /-- `HAS_DISABLE_PIN` -/
  hasDisablePin : Bool
  /-- `HAS_FAULT_PIN` -/
  hasFaultPin   : Bool
  /-- `BATCHED` (D9) -/
  batched       : Bool
  /-- `CLR_FLT_BIT`, 0..7 (D18) -/
  clrFltBit     : Fin 8
  /-- `T_WAKE_US`, a minimum (I17) -/
  tWakeUs       : Nat
  /-- `T_SLEEP_US`, a minimum (I17) -/
  tSleepUs      : Nat
  /-- `DEFAULT_IC1` (R50, D34) -/
  defaultIc1    : Byte
  /-- `DEFAULT_IC2` -/
  defaultIc2    : Byte
  /-- `DEFAULT_IC3` -/
  defaultIc3    : Byte
  /-- `DEFAULT_IC4` -/
  defaultIc4    : Byte
  /-- `LAYOUT`, R40 to R47 (R39, D19) -/
  layout        : Layout
  deriving DecidableEq, Repr

/-- The instance that `State.reset` is: every candidate value of R6 and R50, all three pins attached, discrete
transfers. DESIGN CHOICE, unsafe for a claim that rests on it: log 2. -/
def Config.defaultParams : Params where
  hasSleepPin   := true
  hasDisablePin := true
  hasFaultPin   := true
  batched       := false
  clrFltBit     := 7
  tWakeUs       := 1500
  tSleepUs      := 50
  defaultIc1    := 0x51#8
  defaultIc2    := 0x04#8
  defaultIc3    := 0x30#8
  defaultIc4    := 0x08#8
  layout        := Config.defaultLayout

/-! ### The environment's answers (R11)
An agent answers the outstanding event, or has not answered yet (`notYet`: the block then has no step until it does,
I13). Log 3, log 4. -/

/-- The transport's answer to `Exchange` (R11). `ok rx` delivers the received bytes, of which an exchange of n bytes
takes positions 0 to n-1. The error is opaque (R348). -/
inductive BusReply
  | ok (rx : Bytes8)
  | err
  | notYet
  deriving DecidableEq, Repr, Inhabited

/-- The sleep pin's answer to `PinSet` (R11). -/
inductive PinReply
  | ok | err | notYet
  deriving DecidableEq, Repr, Inhabited

/-- The delay service's answer to `Delay`; it cannot fail (R11, R305). -/
inductive DelayReply
  | done | notYet
  deriving DecidableEq, Repr, Inhabited

/-! Free values: what an agent answers where no answer was laid out beforehand. The argument is the counter `drawn` of
State, so that every draw is a fresh one (R72). Nothing can be proved of their values. -/

/-- FREE VALUE: the transport's answer (R72, D22, I5). -/
opaque Config.freeBusReply : Nat → BusReply
/-- FREE VALUE: the sleep pin's answer (R11). -/
opaque Config.freePinReply : Nat → PinReply
/-- FREE VALUE: when the delay service answers (R305, I12). -/
opaque Config.freeDelayReply : Nat → DelayReply

end Sys2Proof
end

