-- ==== Sys2Proof/Syntax.lean ====
section
/-!
DEFINITION. The instructions: one constructor for each row of spec/opcode_table.json. The host's requests are the block's
instructions (D1). Beside them: the transformation operand of the MODIFY requests (R114) and the REQ record a host offers
(R110).
-/

namespace Sys2Proof

/-- A pure function on n bits as plain data: a finite table of (argument, value) rows, the first row of an argument
counting, and one value for every argument without a row. Every function on n bits has such a table. Log 11. -/
structure FnTable (n : Nat) where
  rows  : List (BitVec n × BitVec n)
  other : BitVec n
  deriving DecidableEq, Repr

/-- The transformation operand of MODIFY_REG (n = 8) and MODIFY_CONFIG (n = 32). `merge` is the form the REQ record
encodes, `table` the general pure transformation the model level adds (R22, R114, D16). -/
inductive Transform (n : Nat)
  | merge (mask data : BitVec n)
  | table (f : FnTable n)
  deriving DecidableEq, Repr

/-- The instructions, in the order of spec/opcode_table.json. -/
inductive Instr
  -- the nine requests (R111)
  | readReg (addr : Addr)
  | writeReg (addr : Addr) (data : Byte)
  | modifyReg (addr : Addr) (f : Transform 8)
  | readConfig
  | writeConfig (cfg : Cfg)
  | modifyConfig (f : Transform 32)
  | clearFault
  | awaken
  | sleep
  -- the seven reserved operation codes (R332), with header bits 11:0
  | reservedOpc0 (rest : BitVec 12)
  | reservedOpcA (rest : BitVec 12)
  | reservedOpcB (rest : BitVec 12)
  | reservedOpcC (rest : BitVec 12)
  | reservedOpcD (rest : BitVec 12)
  | reservedOpcE (rest : BitVec 12)
  | reservedOpcF (rest : BitVec 12)
  -- the seventeen pseudo-instructions (R119)
  | readFault
  | readDiag
  | readIc1
  | readIc2
  | readIc3
  | readIc4
  | writeIc1 (data : Byte)
  | writeIc2 (data : Byte)
  | writeIc3 (data : Byte)
  | writeIc4 (data : Byte)
  | modifyIc1 (mask data : Byte)
  | modifyIc2 (mask data : Byte)
  | modifyIc3 (mask data : Byte)
  | modifyIc4 (mask data : Byte)
  | setBits (addr : Addr) (mask : Byte)
  | clrBits (addr : Addr) (mask : Byte)
  | writeDefaults
  -- the two wire forms (R102, R121): the frames the block sends
  | wireRead (addr : Addr)
  | wireWrite (addr : Addr) (data : Byte)
  deriving DecidableEq, Repr

/-- The REQ record: the 16-bit header and the operand fields that travel with it (R110). `regFn` and `cfgFn` are the
model level's `f` (R22): where one is present it stands in place of MASK and DATA, or of CFG_MASK and CFG. -/
structure Request where
  header  : Header
  data    : Byte
  mask    : Byte
  cfg     : Cfg
  cfgMask : Cfg
  regFn   : Option (FnTable 8)
  cfgFn   : Option (FnTable 32)
  deriving DecidableEq, Repr

/-- The record with every field 0. -/
def Request.zero : Request := ⟨0, 0, 0, 0, 0, none, none⟩

/-- An encoded instruction: a REQ record from the host, or a FRAME16 on the wire (R100). -/
inductive Code
  | req (r : Request)
  | frame (bits : BitVec 16)
  deriving DecidableEq, Repr

/-- The MISUSE sub-codes (R332). -/
inductive MisuseSub
  | reservedOpc | reservedBits | addrRange | readOnly
  deriving DecidableEq, Repr

end Sys2Proof
end

