-- ==== Sys2Proof/WellFormed.lean ====
section
/-!
DEFINITION. Which instructions are well formed: the operand ranges of R112 for the requests and the pseudo-instructions,
and the addresses the block emits for the wire forms (R121). An ill-formed request still has its meaning, the MISUSE
completion of R332; a reserved operation code has no operand that could be out of range. An ill-formed wire form, a frame
the block never emits, still has a meaning too, its exchange; that is the model's choice (log 30).
-/

namespace Sys2Proof

/-- READ_REG may address 0x00 to 0x05 (R36, R112). -/
def addrReadable (a : Addr) : Bool := decide (a.toNat ≤ 5)

/-- WRITE_REG and MODIFY_REG may address 0x02 to 0x05 (R36, R112). -/
def addrWritable (a : Addr) : Bool := decide (2 ≤ a.toNat ∧ a.toNat ≤ 5)

/-- The operands are in the ranges of R112 (R121 for the wire forms). -/
def Instr.wf : Instr → Bool
  | .readReg a => addrReadable a
  | .writeReg a _ => addrWritable a
  | .modifyReg a _ => addrWritable a
  | .readConfig => true
  | .writeConfig _ => true
  | .modifyConfig _ => true
  | .clearFault => true
  | .awaken => true
  | .sleep => true
  | .reservedOpc0 _ => true
  | .reservedOpcA _ => true
  | .reservedOpcB _ => true
  | .reservedOpcC _ => true
  | .reservedOpcD _ => true
  | .reservedOpcE _ => true
  | .reservedOpcF _ => true
  | .readFault => true
  | .readDiag => true
  | .readIc1 => true
  | .readIc2 => true
  | .readIc3 => true
  | .readIc4 => true
  | .writeIc1 _ => true
  | .writeIc2 _ => true
  | .writeIc3 _ => true
  | .writeIc4 _ => true
  | .modifyIc1 _ _ => true
  | .modifyIc2 _ _ => true
  | .modifyIc3 _ _ => true
  | .modifyIc4 _ _ => true
  | .setBits a _ => addrWritable a
  | .clrBits a _ => addrWritable a
  | .writeDefaults => true
  | .wireRead a => addrReadable a
  | .wireWrite a _ => addrWritable a

end Sys2Proof
end

