-- ==== Sys2Proof/Decode.lean ====
section
/-!
DEFINITION. Decoding and encoding (R101 to R121, R333). The decoder is total: a REQ record decodes to an instruction of
the opcode table or is rejected by name with its MISUSE sub-code (R115); a FRAME16 decodes to a wire form or is rejected
by name (R116). A pseudo-instruction has no code of its own: its words decode to the request it stands for (R119).
-/

namespace Sys2Proof

/-! ### Header fields (R110) -/

/-- `OPC`, header bits 15:12. -/
def headerOpc (h : Header) : BitVec 4 := h.extractLsb' 12 4
/-- `RSV`, header bits 11:5. -/
def headerRsv (h : Header) : BitVec 7 := h.extractLsb' 5 7
/-- `ADDR`, header bits 4:0. -/
def headerAddr (h : Header) : Addr := h.extractLsb' 0 5
/-- Header bits 11:0, the part a reserved operation code leaves open. -/
def headerRest (h : Header) : BitVec 12 := h.extractLsb' 0 12

/-- The header of a request with operation code and address given: `(OPC << 12) | ADDR`, RSV = 0 (R110, R120). -/
def headerWith (base : Header) (a : Addr) : Header := base ||| a.setWidth 16

/-! ### VALIDATE (R333) -/

/-- The numeric sub-code `res.sub` (R332). -/
def misuseCode : MisuseSub → BitVec 3
  | .reservedOpc => 1#3
  | .reservedBits => 2#3
  | .addrRange => 3#3
  | .readOnly => 4#3

/-- `VALIDATE(hdr)`: the checks made at acceptance, in the order of R333; the first that fails gives the sub-code, none
means OK. -/
def validate (h : Header) : Option MisuseSub :=
  if headerOpc h = 0x0#4 ∨ 0xA ≤ (headerOpc h).toNat then some .reservedOpc
  else if headerRsv h ≠ 0#7 then some .reservedBits
  else if headerOpc h = 0x1#4 then
    if 5 < (headerAddr h).toNat then some .addrRange else none
  else if headerOpc h = 0x2#4 ∨ headerOpc h = 0x3#4 then
    if 5 < (headerAddr h).toNat then some .addrRange
    else if (headerAddr h).toNat ≤ 1 then some .readOnly
    else none
  else if headerAddr h ≠ 0#5 then some .reservedBits
  else none

/-! ### Configuration packing (R113, R175, R176) and the default configuration (R190) -/

/-- `CONFIG_PACK(ic1, ic2, ic3, ic4)` = `{ic4, ic3, ic2, ic1}` (R175). -/
def configPack (ic1 ic2 ic3 ic4 : Byte) : Cfg := ic4 ++ ic3 ++ ic2 ++ ic1

/-- `cfg_byte(cfg, i)` = `(cfg >> (8*i)) & 0xFF`, the value of register address `0x02 + i` (R113). -/
def cfgByte (c : Cfg) (i : Nat) : Byte := c.extractLsb' (8 * i) 8

/-- `CONFIG_UNPACK(cfg)` (R176). -/
def configUnpack (c : Cfg) : Byte × Byte × Byte × Byte :=
  (cfgByte c 0, cfgByte c 1, cfgByte c 2, cfgByte c 3)

/-- `DEFAULT_CONFIG()` (R190). -/
def defaultConfig (p : Params) : Cfg :=
  configPack p.defaultIc1 p.defaultIc2 p.defaultIc3 p.defaultIc4

/-! ### Command bytes and frames (R101, R102, R106, R140 to R144) -/

/-- `CMD_WRITE(addr)`: R = 0; only addr[4:0] is used (R140). Values are unsigned, so an integer address is a Nat (R10;
log 25). -/
def cmdWrite (addr : Nat) : Byte := BitVec.ofNat 8 (addr &&& 0x1F) <<< 1

/-- `CMD_READ(addr)`: as CMD_WRITE with the read flag set (R141). -/
def cmdRead (addr : Nat) : Byte := 0x40#8 ||| (BitVec.ofNat 8 (addr &&& 0x1F) <<< 1)

/-- `cmd(r, addr)` = `(r << 6) | ((addr & 0x1F) << 1)` (R106). -/
def cmdByte (r : Bool) (addr : Nat) : Byte :=
  ((if r then 1#8 else 0#8) <<< 6) ||| (BitVec.ofNat 8 (addr &&& 0x1F) <<< 1)

/-- `FRAME_READ(addr)` = `[CMD_READ(addr), DUMMY_BYTE]` (R143). -/
def frameRead (addr : Nat) : List Byte := [cmdRead addr, Config.dummyByte]

/-- `FRAME_WRITE(addr, v)` = `[CMD_WRITE(addr), v]`, v verbatim (R144). -/
def frameWrite (addr : Nat) (v : Byte) : List Byte := [cmdWrite addr, v]

/-- A frame of two bytes as a 16-bit pattern with byte 0 in bits 15:8 (R102). -/
def frameBits (f : List Byte) : BitVec 16 := f.getD 0 0#8 ++ f.getD 1 0#8

/-! ### The decoder -/

/-- Why a code is no instruction: the sub-code of a request, or the reserved bits of a wire frame (R116). -/
inductive DecodeError
  /-- a REQ header that matches no row of the table: the machine completes it with MISUSE (R220) -/
  | misuse (sub : MisuseSub)
  /-- bit 7 or bit 0 of the command byte is set: the block never emits it (R116, I1) -/
  | frameReservedBit
  /-- a read frame whose data byte is not DUMMY_BYTE: the block never emits it (R102) -/
  | frameDummyByte
  deriving DecidableEq, Repr

/-- The transformation a MODIFY_REG record carries: its MASK and DATA, or the model level's f (R22, R114). -/
def reqRegTransform (r : Request) : Transform 8 :=
  match r.regFn with
  | none => .merge r.mask r.data
  | some t => .table t

/-- The transformation a MODIFY_CONFIG record carries (R22, R114). -/
def reqCfgTransform (r : Request) : Transform 32 :=
  match r.cfgFn with
  | none => .merge r.cfgMask r.cfg
  | some t => .table t

/-- An instruction whose header carries nothing but the operation code: ADDR must be 0 (R112, R333). -/
def decodeBare (h : Header) (i : Instr) : Except DecodeError Instr :=
  if headerAddr h = 0#5 then .ok i else .error (.misuse .reservedBits)

/-- The assigned operation codes, once RSV is known to be 0 (R111). -/
def decodeAssigned (r : Request) : Except DecodeError Instr :=
  match (headerOpc r.header).toNat with
  | 1 => .ok (.readReg (headerAddr r.header))
  | 2 => .ok (.writeReg (headerAddr r.header) r.data)
  | 3 => .ok (.modifyReg (headerAddr r.header) (reqRegTransform r))
  | 4 => decodeBare r.header .readConfig
  | 5 => decodeBare r.header (.writeConfig r.cfg)
  | 6 => decodeBare r.header (.modifyConfig (reqCfgTransform r))
  | 7 => decodeBare r.header .clearFault
  | 8 => decodeBare r.header .awaken
  | 9 => decodeBare r.header .sleep
  | _ => .error (.misuse .reservedOpc)

/-- Decode a REQ record: the row of the opcode table whose match and mask the header meets, with its operands, or MISUSE
(R111, R112, R115). The address ranges of READ_REG, WRITE_REG and MODIFY_REG are no part of their rows' masks; VALIDATE
checks them when the instruction is accepted. -/
def decodeRequest (r : Request) : Except DecodeError Instr :=
  match (headerOpc r.header).toNat with
  | 0x0 => .ok (.reservedOpc0 (headerRest r.header))
  | 0xA => .ok (.reservedOpcA (headerRest r.header))
  | 0xB => .ok (.reservedOpcB (headerRest r.header))
  | 0xC => .ok (.reservedOpcC (headerRest r.header))
  | 0xD => .ok (.reservedOpcD (headerRest r.header))
  | 0xE => .ok (.reservedOpcE (headerRest r.header))
  | 0xF => .ok (.reservedOpcF (headerRest r.header))
  | _ =>
    if headerRsv r.header = 0#7 then decodeAssigned r
    else .error (.misuse .reservedBits)

/-- Decode a FRAME16, byte 0 in bits 15:8 (R101, R102, R121). -/
def decodeFrame (f : BitVec 16) : Except DecodeError Instr :=
  if f.getLsbD 15 ∨ f.getLsbD 8 then .error .frameReservedBit
  else if f.getLsbD 14 then
    if f.extractLsb' 0 8 = Config.dummyByte then .ok (.wireRead (f.extractLsb' 9 5))
    else .error .frameDummyByte
  else .ok (.wireWrite (f.extractLsb' 9 5) (f.extractLsb' 0 8))

/-- Decode either format. -/
def decode : Code → Except DecodeError Instr
  | .req r => decodeRequest r
  | .frame f => decodeFrame f

/-! ### The encoder (R112, R119, R120) -/

/-- A record with a header and zero operands. -/
def codeBare (h : Header) : Code := .req { Request.zero with header := h }

/-- A MODIFY_REG record: MASK and DATA, or the model level's f. -/
def codeModifyReg (a : Addr) : Transform 8 → Code
  | .merge m d => .req { Request.zero with header := headerWith 0x3000#16 a, mask := m, data := d }
  | .table t => .req { Request.zero with header := headerWith 0x3000#16 a, regFn := some t }

/-- A MODIFY_CONFIG record: CFG_MASK and CFG, or the model level's f. -/
def codeModifyConfig : Transform 32 → Code
  | .merge m c => .req { Request.zero with header := 0x6000#16, cfgMask := m, cfg := c }
  | .table t => .req { Request.zero with header := 0x6000#16, cfgFn := some t }

/-- A WRITE_REG record. -/
def codeWriteReg (a : Addr) (d : Byte) : Code :=
  .req { Request.zero with header := headerWith 0x2000#16 a, data := d }

/-- The words of an instruction. WRITE_DEFAULTS carries the instance's default bytes (R119, R190), so the parameters
are an argument. -/
def encode (p : Params) : Instr → Code
  | .readReg a => codeBare (headerWith 0x1000#16 a)
  | .writeReg a d => codeWriteReg a d
  | .modifyReg a f => codeModifyReg a f
  | .readConfig => codeBare 0x4000#16
  | .writeConfig c => .req { Request.zero with header := 0x5000#16, cfg := c }
  | .modifyConfig f => codeModifyConfig f
  | .clearFault => codeBare 0x7000#16
  | .awaken => codeBare 0x8000#16
  | .sleep => codeBare 0x9000#16
  | .reservedOpc0 rest => codeBare (0x0#4 ++ rest)
  | .reservedOpcA rest => codeBare (0xA#4 ++ rest)
  | .reservedOpcB rest => codeBare (0xB#4 ++ rest)
  | .reservedOpcC rest => codeBare (0xC#4 ++ rest)
  | .reservedOpcD rest => codeBare (0xD#4 ++ rest)
  | .reservedOpcE rest => codeBare (0xE#4 ++ rest)
  | .reservedOpcF rest => codeBare (0xF#4 ++ rest)
  | .readFault => codeBare 0x1000#16
  | .readDiag => codeBare 0x1001#16
  | .readIc1 => codeBare 0x1002#16
  | .readIc2 => codeBare 0x1003#16
  | .readIc3 => codeBare 0x1004#16
  | .readIc4 => codeBare 0x1005#16
  | .writeIc1 d => .req { Request.zero with header := 0x2002#16, data := d }
  | .writeIc2 d => .req { Request.zero with header := 0x2003#16, data := d }
  | .writeIc3 d => .req { Request.zero with header := 0x2004#16, data := d }
  | .writeIc4 d => .req { Request.zero with header := 0x2005#16, data := d }
  | .modifyIc1 m d => .req { Request.zero with header := 0x3002#16, mask := m, data := d }
  | .modifyIc2 m d => .req { Request.zero with header := 0x3003#16, mask := m, data := d }
  | .modifyIc3 m d => .req { Request.zero with header := 0x3004#16, mask := m, data := d }
  | .modifyIc4 m d => .req { Request.zero with header := 0x3005#16, mask := m, data := d }
  | .setBits a m => codeModifyReg a (.merge m m)
  | .clrBits a m => codeModifyReg a (.merge m 0x00#8)
  | .writeDefaults => .req { Request.zero with header := 0x5000#16, cfg := defaultConfig p }
  | .wireRead a => .frame (frameBits (frameRead a.toNat))
  | .wireWrite a d => .frame (frameBits (frameWrite a.toNat d))

/-- The request a pseudo-instruction stands for (R119); every other instruction stands for itself. -/
def expand (p : Params) : Instr → Instr
  | .readFault => .readReg 0x00#5
  | .readDiag => .readReg 0x01#5
  | .readIc1 => .readReg 0x02#5
  | .readIc2 => .readReg 0x03#5
  | .readIc3 => .readReg 0x04#5
  | .readIc4 => .readReg 0x05#5
  | .writeIc1 d => .writeReg 0x02#5 d
  | .writeIc2 d => .writeReg 0x03#5 d
  | .writeIc3 d => .writeReg 0x04#5 d
  | .writeIc4 d => .writeReg 0x05#5 d
  | .modifyIc1 m d => .modifyReg 0x02#5 (.merge m d)
  | .modifyIc2 m d => .modifyReg 0x03#5 (.merge m d)
  | .modifyIc3 m d => .modifyReg 0x04#5 (.merge m d)
  | .modifyIc4 m d => .modifyReg 0x05#5 (.merge m d)
  | .setBits a m => .modifyReg a (.merge m m)
  | .clrBits a m => .modifyReg a (.merge m 0x00#8)
  | .writeDefaults => .writeConfig (defaultConfig p)
  | .readReg a => .readReg a
  | .writeReg a d => .writeReg a d
  | .modifyReg a f => .modifyReg a f
  | .readConfig => .readConfig
  | .writeConfig c => .writeConfig c
  | .modifyConfig f => .modifyConfig f
  | .clearFault => .clearFault
  | .awaken => .awaken
  | .sleep => .sleep
  | .reservedOpc0 r => .reservedOpc0 r
  | .reservedOpcA r => .reservedOpcA r
  | .reservedOpcB r => .reservedOpcB r
  | .reservedOpcC r => .reservedOpcC r
  | .reservedOpcD r => .reservedOpcD r
  | .reservedOpcE r => .reservedOpcE r
  | .reservedOpcF r => .reservedOpcF r
  | .wireRead a => .wireRead a
  | .wireWrite a d => .wireWrite a d

/-! ### The opcode table's numbering -/

/-- The REQ record whose header is w and whose operand fields are 0. -/
def tableRequest (w : Nat) : Request := { Request.zero with header := BitVec.ofNat 16 w }

/-- The instruction the decoder reads from a REQ header of nbits bits numbered as the opcode table numbers them, with
operand fields of 0. Every row has 16 bits. The two FRAME16 rows are no requests: a host cannot offer them, and their
16 bits read as a header are another instruction's or a MISUSE (log 15). -/
def decodeTableWord (nbits w : Nat) : Option Instr :=
  if nbits = 16 ∧ w < 2 ^ 16 then
    match decodeRequest (tableRequest w) with
    | .ok i => some i
    | .error _ => none
  else none

end Sys2Proof
end

