-- ==== Sys2Proof/Machine/Fields.lean ====
section
/-!
DEFINITION. The register bit-field encoder and decoder (R160 to R171, R191): the generic access through a LAYOUT, the
enumerations, the codec of each register under the default LAYOUT, and what an instance's parameters must meet. Every
function here is pure: no state, no event.
-/

namespace Sys2Proof.Machine

/-! ### Generic field access (R160, R161) -/

/-- The width of a field, `hi - lo + 1` (R160). -/
def fieldWidth (f : LayoutRow) : Nat := f.hi - f.lo + 1

/-- `(1 << w) - 1` at 8 bits (R160). -/
def fieldMask (f : LayoutRow) : Byte := (1#8 <<< fieldWidth f) - 1#8

/-- `GET(v, f)` = `(v >> lo) & ((1 << w) - 1)` (R160). -/
def getField (v : Byte) (f : LayoutRow) : Byte := (v >>> f.lo) &&& fieldMask f

/-- `SET(v, f, x)` = `(v & ~(m << lo)) | ((x & m) << lo)`; an x wider than the field is truncated (R161). -/
def setField (v : Byte) (f : LayoutRow) (x : Byte) : Byte :=
  (v &&& ~~~(fieldMask f <<< f.lo)) ||| ((x &&& fieldMask f) <<< f.lo)

/-- The rows of one register (R39). -/
def registerRows (l : Layout) (r : RegName) : Layout := l.filter fun f => f.reg = r

/-- `FROM_BYTE_r(b)`: the record of the register's fields, each holding `GET(b, field)`, in the order of the LAYOUT's rows
(R163). -/
def fromByte (l : Layout) (r : RegName) (b : Byte) : List (FieldName × Byte) :=
  (registerRows l r).map fun f => (f.field, getField b f)

/-- `TO_BYTE_r(t)`: the byte rebuilt by SET of every field, starting from 0 (R163). The record's entries stand for the rows in
their order. -/
def toByte (l : Layout) (r : RegName) (t : List (FieldName × Byte)) : Byte :=
  ((registerRows l r).zip t).foldl (fun acc x => setField acc x.1 x.2.2) 0#8

/-- Bit i of a byte is in the field. -/
def rowHasBit (f : LayoutRow) (i : Nat) : Bool := decide (f.lo ≤ i ∧ i ≤ f.hi)

/-- The rows of one register cover bits 7..0 exactly once (R39). -/
def registerCovered (l : Layout) (r : RegName) : Bool :=
  (registerRows l r).all (fun f => decide (f.lo ≤ f.hi ∧ f.hi ≤ 7))
    && (List.range 8).all (fun i => (registerRows l r).countP (rowHasBit · i) == 1)

/-- Every register's rows cover its byte exactly once (R39). -/
def layoutCovered (l : Layout) : Bool :=
  registerCovered l .fault && registerCovered l .diag && registerCovered l .ic1 && registerCovered l .ic2
    && registerCovered l .ic3 && registerCovered l .ic4

/-- The row of a field by its register and name. -/
def findField (l : Layout) (r : RegName) (n : FieldName) : Option LayoutRow :=
  (registerRows l r).find? fun f => f.field = n

/-! ### Enumerations (R46, R47, R170, R171)
The table of an enumeration stands in its LAYOUT row (R39), so the codes are as open as the positions (R6, D19). -/

/-- The code of a meaning in a table: its place in it. -/
def codeOf (m : Meaning) : List Meaning → Option Nat
  | [] => none
  | x :: rest => if x = m then some 0 else (codeOf m rest).map (· + 1)

/-- `ENUM_DECODE(field, code)`; none where the field is no enumeration or the code is wider than the field (R170). -/
def enumDecode (f : LayoutRow) (code : Byte) : Option Meaning :=
  match f.kind with
  | .enum table => table[code.toNat]?
  | .flag => none
  | .reserved => none

/-- `ENUM_ENCODE(field, meaning)`; none where the field has no such meaning (R170). -/
def enumEncode (f : LayoutRow) (m : Meaning) : Option Byte :=
  match f.kind with
  | .enum table => (codeOf m table).map (BitVec.ofNat 8)
  | .flag => none
  | .reserved => none

/-- The fields that R46 and R47 make enumerations. -/
def isEnumerated : FieldName → Bool
  | .mode | .sr | .toff | .ocpMode | .ocpTretry | .lock | .itripLvl | .disItrip => true
  | .rsvd | .faultG | .otw | .uvlo | .cpuv | .ocp | .tsd | .ol
  | .ol1 | .ol2 | .itrip1 | .itrip2 | .ocpH1 | .ocpL1 | .ocpH2 | .ocpL2
  | .spiIn | .itripRep | .tsdMode | .otwRep | .disCpuv | .clrFlt | .out1Dis | .out2Dis | .enIn1 | .phIn2
  | .enOlp | .olpDly | .enOla | .other _ => false

/-- The meaning is one that a code of the field can have (R46, R47). A field the spec does not name may have any
(log 28). -/
def meaningFits (n : FieldName) (m : Meaning) : Bool :=
  match n, m with
  | .mode, .bridge _ => true
  | .sr, .riseTime _ => true
  | .toff, .offTime _ => true
  | .ocpMode, .overcurrent _ => true
  | .ocpTretry, .retryTime _ => true
  | .lock, .unlock => true
  | .lock, .lock => true
  | .lock, .noEffect _ => true
  | .itripLvl, .tripLevel _ => true
  | .disItrip, .regulation _ => true
  | .other _, _ => true
  | _, _ => false

/-- A code without effect is kept by its meaning (R171): entry i of the table says so of i alone. -/
def keepsCode (table : List Meaning) (i : Nat) : Bool :=
  match table[i]? with
  | some (.noEffect c) => c.toNat == i
  | _ => true

/-- The table fits the field: a bijection between the codes of the field's width and meanings the field can have (R46, R47,
R170); in LOCK one code unlocks, one locks, and every other keeps itself as "no effect" (R171). R46 and R47 give each
enumeration a width; that another LAYOUT may give it another one, and LOCK so another number of codes without effect than
six, is the model's choice: log 36. -/
def tableOk (f : LayoutRow) (table : List Meaning) : Bool :=
  decide (table.length = 2 ^ fieldWidth f) && decide table.Nodup && table.all (meaningFits f.field)
    && (List.range table.length).all (keepsCode table)
    && (f.field != .lock || (table.contains .unlock && table.contains .lock))

/-- The kind fits the row: a flag is 1 bit wide, an enumeration has its table (R39), and a field that R46 or R47 makes an
enumeration is one (DEDUCED: log 28). -/
def rowOk (f : LayoutRow) : Bool :=
  match f.kind with
  | .flag => decide (f.hi = f.lo) && !isEnumerated f.field
  | .enum table => tableOk f table
  | .reserved => !isEnumerated f.field

/-- The fields of one register but the reserved ones have names of their own, so that a name says which field is meant
(DEDUCED, from R160 and R191 naming fields `IC1.MODE`: log 28). -/
def namesDistinct (l : Layout) (r : RegName) : Bool :=
  decide (((registerRows l r).filter fun f => f.kind ≠ .reserved).map LayoutRow.field).Nodup

/-- Every register's field names are distinct. -/
def layoutNamed (l : Layout) : Bool :=
  namesDistinct l .fault && namesDistinct l .diag && namesDistinct l .ic1 && namesDistinct l .ic2
    && namesDistinct l .ic3 && namesDistinct l .ic4

/-- A LAYOUT a block may have (R6, R39): every register covered, every row of its kind, every name that of one field.
FAULT's rows are held to no more than that, although D20 reads R40 from the source: that a LAYOUT may move them is the
model's choice (log 31). No field has to be there and no name is tied to a register, but for what `paramsOk` asks; that
is the model's choice too (log 39). -/
def layoutOk (l : Layout) : Bool := layoutCovered l && l.all rowOk && layoutNamed l

/-! ### The codec of each register under the default LAYOUT (R164 to R169) -/

/-- A flag at its bit of the byte. -/
def flagAt (b : Bool) (i : Nat) : Byte := (if b then 1#8 else 0#8) <<< i

/-- FaultStatus (R40). -/
structure FaultReg where
  ol : Bool
  tsd : Bool
  ocp : Bool
  cpuv : Bool
  uvlo : Bool
  otw : Bool
  faultG : Bool
  rsvd : Bool
  deriving DecidableEq, Repr

/-- DiagnosticStatus (R41). -/
structure DiagReg where
  ocpL2 : Bool
  ocpH2 : Bool
  ocpL1 : Bool
  ocpH1 : Bool
  itrip2 : Bool
  itrip1 : Bool
  ol2 : Bool
  ol1 : Bool
  deriving DecidableEq, Repr

/-- ControlRegister1 (R42); enumerated fields hold codes (R163). -/
structure Ic1Reg where
  mode : BitVec 2
  sr : BitVec 3
  spiIn : Bool
  toff : BitVec 2
  deriving DecidableEq, Repr

/-- ControlRegister2 (R43). -/
structure Ic2Reg where
  ocpMode : BitVec 2
  ocpTretry : BitVec 2
  disCpuv : Bool
  otwRep : Bool
  tsdMode : Bool
  itripRep : Bool
  deriving DecidableEq, Repr

/-- ControlRegister3 (R44). -/
structure Ic3Reg where
  phIn2 : Bool
  enIn1 : Bool
  out2Dis : Bool
  out1Dis : Bool
  lock : BitVec 3
  clrFlt : Bool
  deriving DecidableEq, Repr

/-- ControlRegister4 (R45). -/
structure Ic4Reg where
  disItrip : BitVec 2
  itripLvl : BitVec 2
  enOla : Bool
  olpDly : Bool
  enOlp : Bool
  rsvd : Bool
  deriving DecidableEq, Repr

/-- `FROM_BYTE_FAULT` (R164). -/
def fromByteFault (b : Byte) : FaultReg :=
  ⟨b.getLsbD 0, b.getLsbD 1, b.getLsbD 2, b.getLsbD 3, b.getLsbD 4, b.getLsbD 5, b.getLsbD 6, b.getLsbD 7⟩

/-- `TO_BYTE_FAULT` (R164). -/
def toByteFault (t : FaultReg) : Byte :=
  flagAt t.rsvd 7 ||| flagAt t.faultG 6 ||| flagAt t.otw 5 ||| flagAt t.uvlo 4 ||| flagAt t.cpuv 3
    ||| flagAt t.ocp 2 ||| flagAt t.tsd 1 ||| flagAt t.ol 0

/-- `FROM_BYTE_DIAG` (R165). -/
def fromByteDiag (b : Byte) : DiagReg :=
  ⟨b.getLsbD 0, b.getLsbD 1, b.getLsbD 2, b.getLsbD 3, b.getLsbD 4, b.getLsbD 5, b.getLsbD 6, b.getLsbD 7⟩

/-- `TO_BYTE_DIAG` (R165). -/
def toByteDiag (t : DiagReg) : Byte :=
  flagAt t.ol1 7 ||| flagAt t.ol2 6 ||| flagAt t.itrip1 5 ||| flagAt t.itrip2 4 ||| flagAt t.ocpH1 3
    ||| flagAt t.ocpL1 2 ||| flagAt t.ocpH2 1 ||| flagAt t.ocpL2 0

/-- `FROM_BYTE_IC1` (R166). -/
def fromByteIc1 (b : Byte) : Ic1Reg :=
  { mode := b.extractLsb' 0 2, sr := b.extractLsb' 2 3, spiIn := b.getLsbD 5, toff := b.extractLsb' 6 2 }

/-- `TO_BYTE_IC1` (R166). -/
def toByteIc1 (t : Ic1Reg) : Byte :=
  (t.toff.setWidth 8 <<< 6) ||| flagAt t.spiIn 5 ||| (t.sr.setWidth 8 <<< 2) ||| t.mode.setWidth 8

/-- `FROM_BYTE_IC2` (R167). -/
def fromByteIc2 (b : Byte) : Ic2Reg :=
  { ocpMode := b.extractLsb' 0 2, ocpTretry := b.extractLsb' 2 2, disCpuv := b.getLsbD 4, otwRep := b.getLsbD 5,
    tsdMode := b.getLsbD 6, itripRep := b.getLsbD 7 }

/-- `TO_BYTE_IC2` (R167). -/
def toByteIc2 (t : Ic2Reg) : Byte :=
  flagAt t.itripRep 7 ||| flagAt t.tsdMode 6 ||| flagAt t.otwRep 5 ||| flagAt t.disCpuv 4
    ||| (t.ocpTretry.setWidth 8 <<< 2) ||| t.ocpMode.setWidth 8

/-- `FROM_BYTE_IC3` (R168). -/
def fromByteIc3 (b : Byte) : Ic3Reg :=
  { phIn2 := b.getLsbD 0, enIn1 := b.getLsbD 1, out2Dis := b.getLsbD 2, out1Dis := b.getLsbD 3,
    lock := b.extractLsb' 4 3, clrFlt := b.getLsbD 7 }

/-- `TO_BYTE_IC3` (R168). -/
def toByteIc3 (t : Ic3Reg) : Byte :=
  flagAt t.clrFlt 7 ||| (t.lock.setWidth 8 <<< 4) ||| flagAt t.out1Dis 3 ||| flagAt t.out2Dis 2
    ||| flagAt t.enIn1 1 ||| flagAt t.phIn2 0

/-- `FROM_BYTE_IC4` (R169). -/
def fromByteIc4 (b : Byte) : Ic4Reg :=
  { disItrip := b.extractLsb' 0 2, itripLvl := b.extractLsb' 2 2, enOla := b.getLsbD 4, olpDly := b.getLsbD 5,
    enOlp := b.getLsbD 6, rsvd := b.getLsbD 7 }

/-- `TO_BYTE_IC4` (R169). -/
def toByteIc4 (t : Ic4Reg) : Byte :=
  flagAt t.rsvd 7 ||| flagAt t.enOlp 6 ||| flagAt t.olpDly 5 ||| flagAt t.enOla 4
    ||| (t.itripLvl.setWidth 8 <<< 2) ||| t.disItrip.setWidth 8

/-! ### The constraints on the parameters (R39, R44, R50, R191) -/

/-- The meaning a byte gives a field under a LAYOUT: `ENUM_DECODE(field, GET(b, field))`, the code at the row's own width. -/
def meaningUnder (l : Layout) (r : RegName) (n : FieldName) (b : Byte) : Option Meaning :=
  (findField l r n).bind fun f => enumDecode f (getField b f)

/-- The normative default properties, under the instance's LAYOUT (R50, R191). -/
def defaultsOk (p : Params) : Bool :=
  decide (meaningUnder p.layout .ic1 .mode p.defaultIc1 = some (.bridge .pwm))
    && decide (meaningUnder p.layout .ic1 .sr p.defaultIc1 = some (.riseTime 108))
    && decide (meaningUnder p.layout .ic1 .toff p.defaultIc1 = some (.offTime 40))
    && decide (meaningUnder p.layout .ic4 .itripLvl p.defaultIc4 = some (.tripLevel 65))

/-- The clear-fault bit is where the LAYOUT has it: "this is bit `CLR_FLT_BIT`" of IC3 (R44, R280; DEDUCED: log
28). -/
def clearFaultBitOk (p : Params) : Bool :=
  decide (findField p.layout .ic3 .clrFlt = some ⟨.ic3, .clrFlt, p.clrFltBit, p.clrFltBit, .flag⟩)

/-- Parameters an instance may have (R6, R39, R44, R50, R191). -/
def paramsOk (p : Params) : Bool := layoutOk p.layout && clearFaultBitOk p && defaultsOk p

/-- The candidate values of R6 and R50 meet the constraints. -/
theorem defaultParams_ok : paramsOk Config.defaultParams = true := by decide

end Sys2Proof.Machine
end

