-- ==== Sys2Proof/Machine/State.lean ====
section
/-!
DEFINITION. The state of the block (R20 to R31), the inputs the outside world has laid out for it, the reasons a step can
stop, and the state after reset (R52, R370 to R372). Plain data throughout.
-/

namespace Sys2Proof.Machine

/-! ### Component types -/

/-- The sleep FSM state `S` (R21): AWAKE = 0, ASLEEP = 1, UNKNOWN = 2; the value 3 is never reached. -/
inductive SleepState
  | awake | asleep | unknown
  deriving DecidableEq, Repr

/-- The sequencer's phase (R23). -/
inductive Phase
  | idle | busy
  deriving DecidableEq, Repr

/-- A pin level (R11). -/
inductive PinLevel
  | low | high
  deriving DecidableEq, Repr

/-- `res.err` (R26, R330). -/
inductive Err
  | ok | transport | pin | misuse
  deriving DecidableEq, Repr

/-- The external events, the only actions of the block on the outside world (R11). `exchange tx` sends the bytes tx, 2
(discrete) or 8 (batched) of them; `pinSet` drives the sleep output; `delay` asks for at least that many microseconds. -/
inductive Event
  | exchange (tx : List Byte)
  | pinSet (level : PinLevel)
  | delay (us : Nat)
  deriving DecidableEq, Repr

/-- The request latch `req` (R22). `regFn` and `cfgFn` hold `req.f` where it is not the mask-and-data form (log 11). -/
structure ReqLatch where
  opc     : BitVec 4
  addr    : Addr
  data    : Byte
  mask    : Byte
  cfg     : Cfg
  cfgMask : Cfg
  regFn   : Option (FnTable 8)
  cfgFn   : Option (FnTable 32)
  deriving DecidableEq, Repr

/-- The result record `res` (R26). `sub` is none where the rule's number is 0. -/
structure Result where
  err     : Err
  sub     : Option MisuseSub
  xidx    : BitVec 4
  nexch   : BitVec 4
  nframes : BitVec 4
  st      : Vector (Option Byte) 8
  fault   : Option Payload
  value   : Byte
  wvalue  : Byte
  cfg     : Cfg
  wcfg    : Cfg
  dsu     : Bool
  deriving DecidableEq, Repr

/-- The result record with every field cleared to 0, None or false (R26). -/
def Result.cleared : Result where
  err     := .ok
  sub     := none
  xidx    := 0#4
  nexch   := 0#4
  nframes := 0#4
  st      := #v[none, none, none, none, none, none, none, none]
  fault   := none
  value   := 0#8
  wvalue  := 0#8
  cfg     := 0#32
  wcfg    := 0#32
  dsu     := false

/-! ### The state -/

/-- The state of one block instance. -/
structure State where
  /-- the parameters of R6, fixed at reset; not state of the block (R20), and no step changes them (log 1) -/
  params       : Params
  /-- `S` (R21) -/
  sleep        : SleepState
  /-- `phase` (R23) -/
  phase        : Phase
  /-- `k`, the events issued for the current request (R23) -/
  k            : BitVec 4
  /-- the event that has been issued and not been answered (R12) -/
  outstanding  : Option Event
  /-- `req` (R22) -/
  req          : ReqLatch
  /-- `tx[0..7]` (R24) -/
  tx           : Bytes8
  /-- `rx[0..7]` (R24) -/
  rx           : Bytes8
  /-- `b[0..3]`, the bytes a configuration read has collected (R262, R276; log 8) -/
  bundle       : Vector Byte 4
  /-- `res` (R26) -/
  res          : Result
  /-- `mark.ASLEEP_ACCESS`, sticky (R28) -/
  asleepAccess : Bool
  /-- `L_SLEEP` (R29); none without a sleep pin (log 7) -/
  sleepLatch   : Option PinLevel
  /-- the level on the DISABLE output, the environment's; none without the pin (R29; log 6) -/
  disableLine  : Option PinLevel
  /-- the level on the nFAULT input, the environment's; none without the pin (R29; log 6) -/
  faultLine    : Option PinLevel
  /-- the event history, oldest first (R11, R346; log 14) -/
  history      : List Event
  /-- INPUT: the requests the host will offer, in order; the head is the one on offer (R220; log 12) -/
  offers       : List Request
  /-- INPUT: the transport's coming answers (R11, R72; log 3) -/
  transport    : List BusReply
  /-- INPUT: the sleep pin's coming answers (R11; log 3) -/
  sleepPin     : List PinReply
  /-- INPUT: the delay service's coming answers (R11, R305; log 3) -/
  delay        : List DelayReply
  /-- how many free draws the environment has made (log 3) -/
  drawn        : Nat
  deriving DecidableEq, Repr

/-! ### Why a step can stop -/

/-- The faults of the model. The spec gives the block none: an error is a result value (R338). -/
inductive Fault
  /-- Raised by `step` alone, on a BUSY state whose latched operation code is none of the nine assigned ones. No request
  latches such a code (R220, R333), so no run from reset reaches it; the spec says nothing of it. SAFE. Log 23. -/
  | noRequestProgram
  deriving DecidableEq, Repr

/-- The refusals of the model. -/
inductive Refusal
  /-- Raised by an arm of `exec` whose instruction has no meaning yet; no arm is one. SAFE. -/
  | notModelled (mnemonic : String)
  deriving DecidableEq, Repr

/-- The outcome of a step of this machine. -/
abbrev Outcome := Host.Outcome State Fault Refusal

/-! ### Reset -/

/-- The request latch at reset: unspecified by R52 and never read in IDLE. DESIGN CHOICE zero, unsafe: log 5. -/
def ReqLatch.zero : ReqLatch := ⟨0, 0, 0, 0, 0, 0, none, none⟩

/-- The state right after the construction of an instance with the given parameters (R52, R370, R371, R372). Only
parameters that an instance may have construct one (R39, R44, R191). -/
def State.resetOf (p : Params) (_ok : paramsOk p = true) : State where
  params       := p
  sleep        := if p.hasSleepPin then .asleep else .awake
  phase        := .idle
  k            := 0#4
  outstanding  := none
  req          := ReqLatch.zero
  tx           := #v[0, 0, 0, 0, 0, 0, 0, 0]
  rx           := #v[0, 0, 0, 0, 0, 0, 0, 0]
  bundle       := #v[0, 0, 0, 0]
  res          := Result.cleared
  asleepAccess := false
  sleepLatch   := if p.hasSleepPin then some .low else none
  disableLine  := if p.hasDisablePin then some .low else none
  faultLine    := if p.hasFaultPin then some .low else none
  history      := []
  offers       := []
  transport    := []
  sleepPin     := []
  delay        := []
  drawn        := 0

/-- The machine right after reset: the instance of `Config.defaultParams` (log 2), no request offered and no answer laid
out (log 3, log 12). -/
def State.reset : State := State.resetOf Config.defaultParams defaultParams_ok

end Sys2Proof.Machine
end

