-- ==== Sys2Proof/Machine/Flags.lean ====
section
/-!
DEFINITION. The condition-like outputs (R30): the decoding of status bytes and the aggregated fault (R147 to R149, R152),
the device-state-unknown condition (R334), and the numeric codes of the named values (R21, R26, R330).
-/

namespace Sys2Proof.Machine

/-- The code of `S` (R21). -/
def sleepCode : SleepState → BitVec 2
  | .awake => 0#2
  | .asleep => 1#2
  | .unknown => 2#2

/-- The code `res.err` (R26, R330). -/
def errCode : Err → BitVec 2
  | .ok => 0#2
  | .transport => 1#2
  | .pin => 2#2
  | .misuse => 3#2

/-- The number `res.sub`: the MISUSE sub-code, 0 otherwise (R26, R332). -/
def subCode : Option MisuseSub → BitVec 3
  | none => 0#3
  | some m => misuseCode m

/-- `payload(s)` = `s & 0x3F`, a UInt6 (R107). -/
def payload (s : Byte) : Payload := (s &&& 0x3F#8).setWidth 6

/-- `DECODE_STATUS(s)`: 0xC0 alone means no fault; any other byte is a fault with its low 6 bits (R147). -/
def decodeStatus (s : Byte) : Option Payload :=
  if s = Config.statusOk then none else some (payload s)

/-- The payload read as a FaultStatus byte, `zext_8(p)`: FAULT_G and RSVD are 0 (R107, R152). -/
def faultView (p : Payload) : Byte := p.setWidth 8

/-- The first fault among the recorded status bytes, in frame order (R149). -/
def firstFault : List (Option Byte) → Option Payload
  | [] => none
  | none :: rest => firstFault rest
  | some b :: rest =>
    match decodeStatus b with
    | some p => some p
    | none => firstFault rest

/-- `AGG(st, n)` (R149). -/
def aggregate (st : Vector (Option Byte) 8) (n : BitVec 4) : Option Payload :=
  firstFault (st.toList.take n.toNat)

/-- An exchange holds a write frame: some command byte has its read flag, bit 6, clear (R101, R334). -/
def hasWriteFrame : List Byte → Bool
  | cmd :: _ :: rest => !cmd.getLsbD 6 || hasWriteFrame rest
  | _ => false

end Sys2Proof.Machine
end

