-- ==== Sys2Proof/Machine/Operands.lean ====
section
/-!
DEFINITION. The operand forms (R110, R112 to R114): the record an instruction is accepted as, and the value of its
transformation operand.
-/

namespace Sys2Proof.Machine

/-! ### Transformations (R114) -/

/-- `(v & ~MASK) | (DATA & MASK)` (R114). -/
def mergeBits {n : Nat} (mask data v : BitVec n) : BitVec n := (v &&& ~~~mask) ||| (data &&& mask)

/-- The value of a finite table at v: that of the first row for v, else the table's other value. -/
def lookupRow {n : Nat} (other : BitVec n) : List (BitVec n × BitVec n) → BitVec n → BitVec n
  | [], _ => other
  | (a, b) :: rest, v => if v = a then b else lookupRow other rest v

/-- The pure function a table stands for (R22; log 11). -/
def applyTable {n : Nat} (t : FnTable n) (v : BitVec n) : BitVec n := lookupRow t.other t.rows v

/-- The pure function a transformation operand stands for (R114). -/
def applyTransform {n : Nat} : Transform n → BitVec n → BitVec n
  | .merge m d, v => mergeBits m d v
  | .table t, v => applyTable t v

/-- `req.f` of MODIFY_REG (R22, R270). -/
def latchRegFn (q : ReqLatch) (v : Byte) : Byte :=
  match q.regFn with
  | none => mergeBits q.mask q.data v
  | some t => applyTable t v

/-- `req.f` of MODIFY_CONFIG (R22, R276). -/
def latchCfgFn (q : ReqLatch) (c : Cfg) : Cfg :=
  match q.cfgFn with
  | none => mergeBits q.cfgMask q.cfg c
  | some t => applyTable t c

/-! ### The record an instruction is accepted as
An opcode reads only the operand fields it names and ignores the others (R110); the others are whatever the host's record
on offer holds (log 10). -/

/-- The record the host has on offer. -/
def offered (s : State) : Request := s.offers.headD Request.zero

/-- The record on offer with a header alone named. -/
def recordBare (h : Header) (r : Request) : Request := { r with header := h }

/-- With DATA named. -/
def recordData (h : Header) (d : Byte) (r : Request) : Request := { r with header := h, data := d }

/-- With CFG named. -/
def recordCfg (h : Header) (c : Cfg) (r : Request) : Request := { r with header := h, cfg := c }

/-- With the transformation of MODIFY_REG named: MASK and DATA, or the model level's f. -/
def recordRegFn (h : Header) (f : Transform 8) (r : Request) : Request :=
  match f with
  | .merge m d => { r with header := h, mask := m, data := d, regFn := none }
  | .table t => { r with header := h, regFn := some t }

/-- With the transformation of MODIFY_CONFIG named: CFG_MASK and CFG, or the model level's f. -/
def recordCfgFn (h : Header) (f : Transform 32) (r : Request) : Request :=
  match f with
  | .merge m c => { r with header := h, cfgMask := m, cfg := c, cfgFn := none }
  | .table t => { r with header := h, cfgFn := some t }

/-- The latch an accepted record is written into (R220). -/
def latchOf (r : Request) : ReqLatch where
  opc     := headerOpc r.header
  addr    := headerAddr r.header
  data    := r.data
  mask    := r.mask
  cfg     := r.cfg
  cfgMask := r.cfgMask
  regFn   := r.regFn
  cfgFn   := r.cfgFn

end Sys2Proof.Machine
end

