-- ==== Sys2Proof/Machine/Ops.lean ====
section
/-!
DEFINITION. The shared operations: the exchange buffers (R24), issuing an event and taking its answer (R11, R150),
completion and the raising of errors (R335, R336), acceptance (R220), and the sequencer that runs a request's events in
order (R85, R87).
-/

namespace Sys2Proof.Machine

/-! ### Exchange buffers (R24) -/

/-- Position i of a buffer. -/
def byteAt (v : Bytes8) (i : Nat) : Byte := v[i]?.getD 0#8

/-- `tx` as an exchange loads it: positions 0 to n-1 hold the n bytes sent; the others are not used and keep their
contents (R24; log 9). -/
def loadTx (sent : List Byte) (old : Bytes8) : Bytes8 := Vector.ofFn fun i => sent[i.val]?.getD old[i]

/-- `rx` after a successful exchange of n bytes (R24; log 9). -/
def loadRx (n : Nat) (received old : Bytes8) : Bytes8 :=
  Vector.ofFn fun i => if i.val < n then received[i] else old[i]

/-- The status bytes of an exchange of n bytes, one for each of its n/2 frames: positions 2i (R75, R150). -/
def statusBytes (n : Nat) (received : Bytes8) : List Byte :=
  (List.range (n / 2)).map fun i => byteAt received (2 * i)

/-- Record status bytes in frame order: `res.st[res.nframes] <- Some(b)`, then `res.nframes` goes up by one (R150). -/
def recordStatuses : List Byte → Result → Result
  | [], r => r
  | b :: bs, r =>
    recordStatuses bs
      { r with st := r.st.setIfInBounds r.nframes.toNat (some b), nframes := r.nframes + 1#4 }

/-! ### The answers of the environment (R11, R72; log 3)
The next answer of an agent is the first one laid out in State; where none is, a free value at the draw counter. -/

/-- The transport's next answer. -/
def nextBusReply (s : State) : BusReply :=
  match s.transport with
  | r :: _ => r
  | [] => Config.freeBusReply s.drawn

/-- The state once that answer is taken. -/
def takeBusReply (s : State) : State :=
  match s.transport with
  | _ :: rest => { s with transport := rest }
  | [] => { s with drawn := s.drawn + 1 }

/-- The sleep pin's next answer. -/
def nextPinReply (s : State) : PinReply :=
  match s.sleepPin with
  | r :: _ => r
  | [] => Config.freePinReply s.drawn

/-- The state once that answer is taken. -/
def takePinReply (s : State) : State :=
  match s.sleepPin with
  | _ :: rest => { s with sleepPin := rest }
  | [] => { s with drawn := s.drawn + 1 }

/-- The delay service's next answer. -/
def nextDelayReply (s : State) : DelayReply :=
  match s.delay with
  | r :: _ => r
  | [] => Config.freeDelayReply s.drawn

/-- The state once that answer is taken. -/
def takeDelayReply (s : State) : State :=
  match s.delay with
  | _ :: rest => { s with delay := rest }
  | [] => { s with drawn := s.drawn + 1 }

/-! ### Issuing an event (R11, R23, R150) -/

/-- An access while not awake: there is a sleep pin and S is not AWAKE (R28, R307). -/
def accessWhileAsleep (s : State) : Bool := s.params.hasSleepPin && decide (s.sleep ≠ .awake)

/-- Issue an event: `k` goes up by one (R23) and the event enters the history (R11). An exchange also loads `tx` (R24)
and sets the sticky mark when the device may be asleep; it is issued all the same (R150, R307). `k` is 4 bits; no request
wraps it (R23), and that a wire form by itself may is the model's choice: log 34. -/
def issue (e : Event) (s : State) : State :=
  match e with
  | .exchange sent =>
    { s with
      asleepAccess := s.asleepAccess || accessWhileAsleep s
      k := s.k + 1#4
      outstanding := some e
      tx := loadTx sent s.tx
      history := s.history ++ [e] }
  | .pinSet _ =>
    { s with k := s.k + 1#4, outstanding := some e, history := s.history ++ [e] }
  | .delay _ =>
    { s with k := s.k + 1#4, outstanding := some e, history := s.history ++ [e] }

/-! ### Taking an event's answer -/

/-- What the wait for an answer comes to. -/
inductive Answer
  /-- no answer yet: the block has no step until there is one (I13; log 4) -/
  | waiting (s : State)
  /-- the event failed; `wrote` says that it was an exchange that held a write frame (R334) -/
  | failed (e : Err) (wrote : Bool) (s : State)
  /-- the event returned -/
  | answered (s : State)
  deriving DecidableEq, Repr

/-- A successful exchange of n bytes: `rx`, `res.nexch` and the status bytes of its frames (R150). That a wire form by itself
may wrap `res.nexch` is the model's choice: log 34. -/
def recordExchange (n : Nat) (received : Bytes8) (s : State) : State :=
  { s with
    outstanding := none
    rx := loadRx n received s.rx
    res := recordStatuses (statusBytes n received) { s.res with nexch := s.res.nexch + 1#4 } }

/-- A failed exchange: `res.xidx` is the index of this exchange; nothing of it is recorded (R150). -/
def recordFailedExchange (s : State) : State :=
  { s with outstanding := none, res := { s.res with xidx := s.res.nexch } }

/-- The event has returned. -/
def clearOutstanding (s : State) : State := { s with outstanding := none }

/-- A failed PinSet leaves S UNKNOWN; `L_SLEEP` keeps its value (R303, R304, R309). -/
def recordFailedPin (s : State) : State := { s with outstanding := none, sleep := .unknown }

/-- Take the answer to an outstanding event (R11, R150, R303 to R305). -/
def awaitAnswer (e : Event) (s : State) : Answer :=
  match e with
  | .exchange sent =>
    match nextBusReply s with
    | .ok received => .answered (recordExchange sent.length received (takeBusReply s))
    | .err => .failed .transport (hasWriteFrame sent) (recordFailedExchange (takeBusReply s))
    | .notYet => .waiting (takeBusReply s)
  | .pinSet _ =>
    match nextPinReply s with
    | .ok => .answered (clearOutstanding (takePinReply s))
    | .err => .failed .pin false (recordFailedPin (takePinReply s))
    | .notYet => .waiting (takePinReply s)
  | .delay _ =>
    match nextDelayReply s with
    | .done => .answered (clearOutstanding (takeDelayReply s))
    | .notYet => .waiting (takeDelayReply s)

/-! ### Completion (R335, R336)
The block takes no trap: an error ends the request through the one completion procedure (R338). -/

/-- `COMPLETE(e)` (R336). `wrote` says that the failing exchange held a write frame; it counts for TRANSPORT only. -/
def complete (e : Err) (wrote : Bool) (s : State) : State :=
  { s with
    phase := .idle
    res := { s.res with
      err := e
      fault := aggregate s.res.st s.res.nframes
      dsu := s.res.dsu || (decide (e = .transport) && wrote) } }

/-! ### The sequencer (R7, R85, R87, R335) -/

/-- One event of a request: what is issued, from the state at that point, and what the request does once the event has
returned. -/
structure Stage where
  event : State → Event
  done  : State → State

/-- A request: what it does before its first event, and its events in order. The events are counted by `k`, so `k` tells
where the request stands (R23). -/
structure Program where
  start  : State → State
  stages : State → List Stage

/-- Run the remaining stages: issue each event once the previous one has returned (R85), stop at the first that fails and
complete with its error (R335), leave the request BUSY where an event has no answer yet, and complete with OK at the end
(R221). -/
def runStages : List Stage → State → State
  | [], s => complete .ok false s
  | g :: gs, s =>
    match awaitAnswer (g.event s) (issue (g.event s) s) with
    | .waiting t => t
    | .failed e wrote t => complete e wrote t
    | .answered t => runStages gs (g.done t)

/-- Go on with a BUSY request: take the answer to the outstanding event, then run the stages after it. Where the request stands
is read off `k` (R23). A wire form run over the request makes `k` one higher, so that the request's next event is skipped,
or with nothing outstanding left the run goes on at stage `k`; no step reaches such a state, and what it does there is the
model's choice: log 35. -/
def resume (p : Program) (s : State) : State :=
  match s.outstanding with
  | none => runStages ((p.stages s).drop s.k.toNat) s
  | some e =>
    match awaitAnswer e s with
    | .waiting t => t
    | .failed err wrote t => complete err wrote t
    | .answered t =>
      match (p.stages s).drop (s.k.toNat - 1) with
      | [] => complete .ok false t
      | g :: gs => runStages gs (g.done t)

/-! ### Acceptance (R220) -/

/-- The host's record is taken and the result record cleared (R26, R220). -/
def takeOffer (s : State) : State := { s with offers := s.offers.tail, res := Result.cleared }

/-- MISUSE: no event is issued and the phase stays IDLE (R220, R332); the latch and `k` are not written (log 21). -/
def refuse (sub : MisuseSub) (s : State) : State :=
  { takeOffer s with res := { Result.cleared with err := .misuse, sub := some sub } }

/-- The record is latched, `k` is 0 and the block BUSY (R23, R220). -/
def latch (r : Request) (s : State) : State :=
  { takeOffer s with req := latchOf r, k := 0#4, phase := .busy, outstanding := none }

/-- `ACCEPT`, and the run of the request (R220, R221). Acceptance happens in IDLE only: a request offered while the block
is BUSY waits, and nothing changes. -/
def acceptRequest (r : Request) (p : Program) (s : State) : State :=
  match s.phase with
  | .busy => s
  | .idle =>
    match validate r.header with
    | some sub => refuse sub s
    | none => runStages (p.stages (latch r s)) (p.start (latch r s))

/-- A request whose header is refused whatever its operands (R220, R332). -/
def refuseRequest (sub : MisuseSub) (s : State) : State :=
  match s.phase with
  | .busy => s
  | .idle => refuse sub s

/-! ### Exchange procedures (R145, R146, R151) -/

/-- `XREAD(addr)`: a read frame; `keep` takes the register's byte, `rx[1]`, whatever the status says (R145). -/
def xread (addr : State → Nat) (keep : Byte → State → State) : Stage where
  event s := .exchange (frameRead (addr s))
  done s := keep (byteAt s.rx 1) s

/-- `XWRITE(addr, v)`: a write frame; response byte 1 is discarded (R146). -/
def xwrite (addr : State → Nat) (v : State → Byte) : Stage where
  event s := .exchange (frameWrite (addr s) (v s))
  done s := s

/-- `XBATCH(tx8)`: four frames in one exchange; `keep` takes `[rx[1], rx[3], rx[5], rx[7]]` (R151). -/
def xbatch (tx8 : State → List Byte) (keep : Byte → Byte → Byte → Byte → State → State) : Stage where
  event s := .exchange (tx8 s)
  done s := keep (byteAt s.rx 1) (byteAt s.rx 3) (byteAt s.rx 5) (byteAt s.rx 7) s

/-- One exchange by itself, with the error exit of R150: the procedure a wire form stands for. The spec gives XFER no standing
outside a request (R12, R150), so that it makes XFER's writes on any state, as the state stands, is the model's choice (log
37):
- the exchange has no answer yet: the event is outstanding and the phase stays as it was; from IDLE the next acceptance
  drops the event unanswered, and in BUSY a later step takes the answer as that of the event `k` then stands at (logs 29,
  35);
- in BUSY, over the request's own outstanding event (R85): that event is dropped, `k` one higher (log 32);
- in IDLE, over the outstanding event of an earlier wire form: that event is dropped (log 38);
- answered in IDLE: the earlier request's `res` gains an exchange and a status, its `fault` not aggregated again (R27; log
  37);
- failed: `res` ends as it stands, so the `sub` and `dsu` of an earlier request stay (log 33);
- counters at 15 wrap (log 34). -/
def exchangeOnce (sent : List Byte) (s : State) : State :=
  match awaitAnswer (.exchange sent) (issue (.exchange sent) s) with
  | .waiting t => t
  | .failed e wrote t => complete e wrote t
  | .answered t => t

/-! ### Result fields (R26) -/

/-- `res.value <- v` -/
def setValue (v : Byte) (s : State) : State := { s with res := { s.res with value := v } }
/-- `res.wvalue <- v` -/
def setWvalue (v : Byte) (s : State) : State := { s with res := { s.res with wvalue := v } }
/-- `res.cfg <- c` -/
def setCfg (c : Cfg) (s : State) : State := { s with res := { s.res with cfg := c } }
/-- `res.wcfg <- c` -/
def setWcfg (c : Cfg) (s : State) : State := { s with res := { s.res with wcfg := c } }
/-- `b[i] <- v` -/
def setBundle (i : Nat) (v : Byte) (s : State) : State := { s with bundle := s.bundle.setIfInBounds i v }

end Sys2Proof.Machine
end

