-- ==== Sys2Proof/Machine/Misuse.lean ====
section
/-!
DEFINITION. The reserved operation codes 0x0 and 0xA to 0xF: each is refused with MISUSE RESERVED_OPC and no event, whatever
header bits 11:0 hold (R116, R332, R333).
-/

namespace Sys2Proof.Machine

/-- OPC 0x0 (R332). -/
def execReservedOpc0 (_rest : BitVec 12) (s : State) : Outcome := .next (refuseRequest .reservedOpc s)
/-- OPC 0xA (R332). -/
def execReservedOpcA (_rest : BitVec 12) (s : State) : Outcome := .next (refuseRequest .reservedOpc s)
/-- OPC 0xB (R332). -/
def execReservedOpcB (_rest : BitVec 12) (s : State) : Outcome := .next (refuseRequest .reservedOpc s)
/-- OPC 0xC (R332). -/
def execReservedOpcC (_rest : BitVec 12) (s : State) : Outcome := .next (refuseRequest .reservedOpc s)
/-- OPC 0xD (R332). -/
def execReservedOpcD (_rest : BitVec 12) (s : State) : Outcome := .next (refuseRequest .reservedOpc s)
/-- OPC 0xE (R332). -/
def execReservedOpcE (_rest : BitVec 12) (s : State) : Outcome := .next (refuseRequest .reservedOpc s)
/-- OPC 0xF (R332). -/
def execReservedOpcF (_rest : BitVec 12) (s : State) : Outcome := .next (refuseRequest .reservedOpc s)

end Sys2Proof.Machine
end

