-- ==== Sys2Proof/Machine/Bundle.lean ====
section
/-!
DEFINITION. The configuration bundle: READ_CONFIG (R262), WRITE_CONFIG (R265), MODIFY_CONFIG (R276) and WRITE_DEFAULTS
(R119). Each phase accesses IC1 to IC4 in ascending address order, discrete or batched (R260, R261).
-/

namespace Sys2Proof.Machine

/-- `A(i)` = `0x02 + i` (43_config.md). -/
def bundleAddr (i : Nat) : Nat := 0x02 + i

/-- The frames of a batched read (R262). -/
def batchReadBytes : List Byte :=
  frameRead (bundleAddr 0) ++ frameRead (bundleAddr 1) ++ frameRead (bundleAddr 2) ++ frameRead (bundleAddr 3)

/-- The frames of a batched write of a configuration (R265). -/
def batchWriteBytes (c : Cfg) : List Byte :=
  frameWrite (bundleAddr 0) (cfgByte c 0) ++ frameWrite (bundleAddr 1) (cfgByte c 1)
    ++ frameWrite (bundleAddr 2) (cfgByte c 2) ++ frameWrite (bundleAddr 3) (cfgByte c 3)

/-- `CONFIG_PACK(b[0], b[1], b[2], b[3])`. -/
def packBundle (s : State) : Cfg := configPack s.bundle[0] s.bundle[1] s.bundle[2] s.bundle[3]

/-- A read phase; `assembled` takes the configuration once all four bytes are there (R262). -/
def readPhase (batched : Bool) (assembled : Cfg → State → State) : List Stage :=
  if batched then
    [ xbatch (fun _ => batchReadBytes) (fun b0 b1 b2 b3 s => assembled (configPack b0 b1 b2 b3) s) ]
  else
    [ xread (fun _ => bundleAddr 0) (setBundle 0),
      xread (fun _ => bundleAddr 1) (setBundle 1),
      xread (fun _ => bundleAddr 2) (setBundle 2),
      xread (fun _ => bundleAddr 3) (fun v s => assembled (packBundle (setBundle 3 v s)) (setBundle 3 v s)) ]

/-- A write phase of the configuration in `res.wcfg`; an IC-reported fault stops nothing (R265, R266). -/
def writePhase (batched : Bool) : List Stage :=
  if batched then
    [ xbatch (fun s => batchWriteBytes s.res.wcfg) (fun _ _ _ _ s => s) ]
  else
    [ xwrite (fun _ => bundleAddr 0) (fun s => cfgByte s.res.wcfg 0),
      xwrite (fun _ => bundleAddr 1) (fun s => cfgByte s.res.wcfg 1),
      xwrite (fun _ => bundleAddr 2) (fun s => cfgByte s.res.wcfg 2),
      xwrite (fun _ => bundleAddr 3) (fun s => cfgByte s.res.wcfg 3) ]

/-- The body of READ_CONFIG (R262, R263). -/
def readConfigProgram : Program where
  start s := s
  stages s := readPhase s.params.batched setCfg

/-- The body of WRITE_CONFIG (R265). -/
def writeConfigProgram : Program where
  start s := setWcfg s.req.cfg s
  stages s := writePhase s.params.batched

/-- The body of MODIFY_CONFIG: the read phase, `res.cfg`, `res.wcfg <- f(c)`, the write phase (R276). -/
def modifyConfigProgram : Program where
  start s := s
  stages s :=
    readPhase s.params.batched (fun c s => setWcfg (latchCfgFn s.req c) (setCfg c s))
      ++ writePhase s.params.batched

/-- WRITE_CONFIG of a configuration. -/
def writeBundle (c : Cfg) (s : State) : State :=
  acceptRequest (recordCfg 0x5000#16 c (offered s)) writeConfigProgram s

/-- READ_CONFIG (R262). -/
def execReadConfig (s : State) : Outcome :=
  .next (acceptRequest (recordBare 0x4000#16 (offered s)) readConfigProgram s)

/-- WRITE_CONFIG (R265). -/
def execWriteConfig (c : Cfg) (s : State) : Outcome := .next (writeBundle c s)

/-- MODIFY_CONFIG (R276). -/
def execModifyConfig (f : Transform 32) (s : State) : Outcome :=
  .next (acceptRequest (recordCfgFn 0x6000#16 f (offered s)) modifyConfigProgram s)

/-- WRITE_DEFAULTS: `WRITE_CONFIG DEFAULT_CONFIG()` (R119, R190). -/
def execWriteDefaults (s : State) : Outcome := .next (writeBundle (defaultConfig s.params) s)

end Sys2Proof.Machine
end

