-- ==== Sys2Proof/Machine/Modify.lean ====
section
/-!
DEFINITION. Read-modify-write of one register: MODIFY_REG (R270, R271) and its spellings (R119), and CLEAR_FAULT (R280).
Not atomic: a read exchange and then a write exchange (R79, R91).
-/

namespace Sys2Proof.Machine

/-- The body of MODIFY_REG: read, transform, write back; the write is issued even if nothing changed or the read reported
a fault (R270, R271). -/
def modifyRegProgram : Program where
  start s := s
  stages _ :=
    [ xread (fun s => s.req.addr.toNat) (fun v s => setWvalue (latchRegFn s.req v) (setValue v s)),
      xwrite (fun s => s.req.addr.toNat) (fun s => s.res.wvalue) ]

/-- `1 << CLR_FLT_BIT` (R280). -/
def clearFaultMask (p : Params) : Byte := 1#8 <<< p.clrFltBit.val

/-- The body of CLEAR_FAULT: read IC3, set the clear-fault bit, write back (R280). -/
def clearFaultProgram : Program where
  start s := s
  stages _ :=
    [ xread (fun _ => 0x04) (fun v s => setWvalue (v ||| clearFaultMask s.params) (setValue v s)),
      xwrite (fun _ => 0x04) (fun s => s.res.wvalue) ]

/-- MODIFY_REG of the register at an address. -/
def modifyRegister (a : Addr) (f : Transform 8) (s : State) : State :=
  acceptRequest (recordRegFn (headerWith 0x3000#16 a) f (offered s)) modifyRegProgram s

/-- MODIFY_REG (R270). -/
def execModifyReg (a : Addr) (f : Transform 8) (s : State) : Outcome := .next (modifyRegister a f s)

/-- CLEAR_FAULT (R280). -/
def execClearFault (s : State) : Outcome :=
  .next (acceptRequest (recordBare 0x7000#16 (offered s)) clearFaultProgram s)

/-- MODIFY_IC1 (R119, R270). -/
def execModifyIc1 (m d : Byte) (s : State) : Outcome := .next (modifyRegister 0x02#5 (.merge m d) s)
/-- MODIFY_IC2 (R119, R270). -/
def execModifyIc2 (m d : Byte) (s : State) : Outcome := .next (modifyRegister 0x03#5 (.merge m d) s)
/-- MODIFY_IC3 (R119, R270). -/
def execModifyIc3 (m d : Byte) (s : State) : Outcome := .next (modifyRegister 0x04#5 (.merge m d) s)
/-- MODIFY_IC4 (R119, R270). -/
def execModifyIc4 (m d : Byte) (s : State) : Outcome := .next (modifyRegister 0x05#5 (.merge m d) s)

/-- SET_BITS a, m: `MODIFY_REG a, m, m` (R119). -/
def execSetBits (a : Addr) (m : Byte) (s : State) : Outcome := .next (modifyRegister a (.merge m m) s)
/-- CLR_BITS a, m: `MODIFY_REG a, m, 0x00` (R119). -/
def execClrBits (a : Addr) (m : Byte) (s : State) : Outcome := .next (modifyRegister a (.merge m 0x00#8) s)

end Sys2Proof.Machine
end

