-- ==== Sys2Proof/Machine/Power.lean ====
section
/-!
DEFINITION. The sleep-wake timing FSM: AWAKEN (R303) and SLEEP (R304), with the transitions of R300 and R301.
-/

namespace Sys2Proof.Machine

/-- `L_SLEEP <- level`, once the pin has taken it (R29, R303, R304). -/
def setSleepLatch (l : PinLevel) (s : State) : State := { s with sleepLatch := some l }

/-- `S <- x`, once the delay has returned (R306). -/
def setSleep (x : SleepState) (s : State) : State := { s with sleep := x }

/-- Drive the sleep output, then wait, then change S (R303, R304, R306). -/
def powerStages (l : PinLevel) (wait : State → Nat) (x : SleepState) : List Stage :=
  [ { event := fun _ => .pinSet l, done := setSleepLatch l },
    { event := fun s => .delay (wait s), done := setSleep x } ]

/-- The body of AWAKEN: nothing without a sleep pin or when AWAKE (R301, R303). -/
def awakenProgram : Program where
  start s := s
  stages s :=
    if s.params.hasSleepPin = false ∨ s.sleep = .awake then []
    else powerStages .high (fun t => t.params.tWakeUs) .awake

/-- The body of SLEEP: nothing without a sleep pin or when ASLEEP (R301, R304). -/
def sleepProgram : Program where
  start s := s
  stages s :=
    if s.params.hasSleepPin = false ∨ s.sleep = .asleep then []
    else powerStages .low (fun t => t.params.tSleepUs) .asleep

/-- AWAKEN (R303). -/
def execAwaken (s : State) : Outcome :=
  .next (acceptRequest (recordBare 0x8000#16 (offered s)) awakenProgram s)

/-- SLEEP (R304). -/
def execSleep (s : State) : Outcome :=
  .next (acceptRequest (recordBare 0x9000#16 (offered s)) sleepProgram s)

end Sys2Proof.Machine
end

