-- ==== Sys2Proof/Machine/Transactions.lean ====
section
/-!
DEFINITION. Single-register transactions: READ_REG (R225), WRITE_REG (R226) and their typed spellings (R228 to R231).
-/

namespace Sys2Proof.Machine

/-- The body of READ_REG: one read exchange, and its byte in `res.value` (R225). -/
def readRegProgram : Program where
  start s := s
  stages _ := [xread (fun s => s.req.addr.toNat) setValue]

/-- The body of WRITE_REG: `res.wvalue`, then one write exchange (R226). -/
def writeRegProgram : Program where
  start s := setWvalue s.req.data s
  stages _ := [xwrite (fun s => s.req.addr.toNat) (fun s => s.req.data)]

/-- READ_REG of the register at an address. -/
def readRegister (a : Addr) (s : State) : State :=
  acceptRequest (recordBare (headerWith 0x1000#16 a) (offered s)) readRegProgram s

/-- WRITE_REG of a byte to the register at an address. -/
def writeRegister (a : Addr) (d : Byte) (s : State) : State :=
  acceptRequest (recordData (headerWith 0x2000#16 a) d (offered s)) writeRegProgram s

/-- READ_REG (R225). -/
def execReadReg (a : Addr) (s : State) : Outcome := .next (readRegister a s)
/-- WRITE_REG (R226). -/
def execWriteReg (a : Addr) (d : Byte) (s : State) : Outcome := .next (writeRegister a d s)

/-- READ_FAULT (R228). -/
def execReadFault (s : State) : Outcome := .next (readRegister 0x00#5 s)
/-- READ_DIAG (R229). -/
def execReadDiag (s : State) : Outcome := .next (readRegister 0x01#5 s)
/-- READ_IC1 (R230). -/
def execReadIc1 (s : State) : Outcome := .next (readRegister 0x02#5 s)
/-- READ_IC2 (R230). -/
def execReadIc2 (s : State) : Outcome := .next (readRegister 0x03#5 s)
/-- READ_IC3 (R230). -/
def execReadIc3 (s : State) : Outcome := .next (readRegister 0x04#5 s)
/-- READ_IC4 (R230). -/
def execReadIc4 (s : State) : Outcome := .next (readRegister 0x05#5 s)

/-- WRITE_IC1 (R231). -/
def execWriteIc1 (d : Byte) (s : State) : Outcome := .next (writeRegister 0x02#5 d s)
/-- WRITE_IC2 (R231). -/
def execWriteIc2 (d : Byte) (s : State) : Outcome := .next (writeRegister 0x03#5 d s)
/-- WRITE_IC3 (R231). -/
def execWriteIc3 (d : Byte) (s : State) : Outcome := .next (writeRegister 0x04#5 d s)
/-- WRITE_IC4 (R231). -/
def execWriteIc4 (d : Byte) (s : State) : Outcome := .next (writeRegister 0x05#5 d s)

end Sys2Proof.Machine
end

