-- ==== Sys2Proof/Machine/Sequencer.lean ====
section
/-!
DEFINITION. The dispatch of a BUSY request on its latched operation code (R111, R220).
-/

namespace Sys2Proof.Machine

/-- The body of the request with an operation code; none where the code is not assigned (R111). -/
def programOf (opc : BitVec 4) : Option Program :=
  match opc.toNat with
  | 1 => some readRegProgram
  | 2 => some writeRegProgram
  | 3 => some modifyRegProgram
  | 4 => some readConfigProgram
  | 5 => some writeConfigProgram
  | 6 => some modifyConfigProgram
  | 7 => some clearFaultProgram
  | 8 => some awakenProgram
  | 9 => some sleepProgram
  | _ => none

/-- A BUSY block goes on with its request; the host's next offer waits (R220, R386). A latched code that no request can
latch is a fault (log 23). -/
def continueBusy (s : State) : Outcome :=
  match programOf s.req.opc with
  | some p => .next (resume p s)
  | none => .fault .noRequestProgram

/-- The completion of an offered record that is no instruction: MISUSE with the decoder's sub-code (R115, R220). A wire
frame is never on offer, and its rejections have no sub-code. -/
def misuseOf : DecodeError → MisuseSub
  | .misuse sub => sub
  | .frameReservedBit => .reservedBits
  | .frameDummyByte => .reservedBits

end Sys2Proof.Machine
end

