-- ==== Sys2Proof/Machine/Wire.lean ====
section
/-!
DEFINITION. The two wire forms: the frames the block sends while it runs a request (R102, R121). No host request names
them; their meaning is the exchange procedure their rows cite, by itself (log 17). The procedures take an address that a request has
checked (R145, R146), and the block never emits the others (R121); that the arms run the exchange on any address all the
same is the model's choice (log 30).
-/

namespace Sys2Proof.Machine

/-- WIRE_READ: `XREAD(addr)`, one read frame; the register's byte is `rx[1]` (R145). An address above 0x05 gives the
exchange all the same: log 30. -/
def execWireRead (a : Addr) (s : State) : Outcome := .next (exchangeOnce (frameRead a.toNat) s)

/-- WIRE_WRITE: `XWRITE(addr, v)`, one write frame (R146). An address below 0x02 or above 0x05 gives the exchange all the
same: log 30. -/
def execWireWrite (a : Addr) (d : Byte) (s : State) : Outcome := .next (exchangeOnce (frameWrite a.toNat d) s)

end Sys2Proof.Machine
end

