-- ==== Sys2Proof/Machine/Dispatch.lean ====
section
/-!
DEFINITION. One arm per instruction (R111, R119, R121, R332).
-/

namespace Sys2Proof.Machine

/-- The meaning of an instruction. -/
def exec (i : Instr) (s : State) : Host.Outcome State Fault Refusal :=
  match i with
  | .readReg addr => Sys2Proof.Machine.execReadReg addr s
  | .writeReg addr data => Sys2Proof.Machine.execWriteReg addr data s
  | .modifyReg addr f => Sys2Proof.Machine.execModifyReg addr f s
  | .readConfig => Sys2Proof.Machine.execReadConfig s
  | .writeConfig cfg => Sys2Proof.Machine.execWriteConfig cfg s
  | .modifyConfig f => Sys2Proof.Machine.execModifyConfig f s
  | .clearFault => Sys2Proof.Machine.execClearFault s
  | .awaken => Sys2Proof.Machine.execAwaken s
  | .sleep => Sys2Proof.Machine.execSleep s
  | .reservedOpc0 rest => Sys2Proof.Machine.execReservedOpc0 rest s
  | .reservedOpcA rest => Sys2Proof.Machine.execReservedOpcA rest s
  | .reservedOpcB rest => Sys2Proof.Machine.execReservedOpcB rest s
  | .reservedOpcC rest => Sys2Proof.Machine.execReservedOpcC rest s
  | .reservedOpcD rest => Sys2Proof.Machine.execReservedOpcD rest s
  | .reservedOpcE rest => Sys2Proof.Machine.execReservedOpcE rest s
  | .reservedOpcF rest => Sys2Proof.Machine.execReservedOpcF rest s
  | .readFault => Sys2Proof.Machine.execReadFault s
  | .readDiag => Sys2Proof.Machine.execReadDiag s
  | .readIc1 => Sys2Proof.Machine.execReadIc1 s
  | .readIc2 => Sys2Proof.Machine.execReadIc2 s
  | .readIc3 => Sys2Proof.Machine.execReadIc3 s
  | .readIc4 => Sys2Proof.Machine.execReadIc4 s
  | .writeIc1 data => Sys2Proof.Machine.execWriteIc1 data s
  | .writeIc2 data => Sys2Proof.Machine.execWriteIc2 data s
  | .writeIc3 data => Sys2Proof.Machine.execWriteIc3 data s
  | .writeIc4 data => Sys2Proof.Machine.execWriteIc4 data s
  | .modifyIc1 mask data => Sys2Proof.Machine.execModifyIc1 mask data s
  | .modifyIc2 mask data => Sys2Proof.Machine.execModifyIc2 mask data s
  | .modifyIc3 mask data => Sys2Proof.Machine.execModifyIc3 mask data s
  | .modifyIc4 mask data => Sys2Proof.Machine.execModifyIc4 mask data s
  | .setBits addr mask => Sys2Proof.Machine.execSetBits addr mask s
  | .clrBits addr mask => Sys2Proof.Machine.execClrBits addr mask s
  | .writeDefaults => Sys2Proof.Machine.execWriteDefaults s
  | .wireRead addr => Sys2Proof.Machine.execWireRead addr s
  | .wireWrite addr data => Sys2Proof.Machine.execWireWrite addr data s

end Sys2Proof.Machine
end

