-- ==== Sys2Proof/Machine/Step.lean ====
section
/-!
DEFINITION. One step of the machine. The block fetches no instructions (R92): its next instruction is the request the host
has on offer. A step in IDLE accepts that request and runs it until it completes or an event has no answer yet; a step in
BUSY goes on with the request in progress (log 13).
-/

namespace Sys2Proof.Machine

/-- One step. IDLE with nothing on offer: the block stays as it is (D26). -/
def step (s : State) : Host.Outcome State Fault Refusal :=
  match s.phase with
  | .busy => continueBusy s
  | .idle =>
    match s.offers with
    | [] => .next s
    | r :: _ =>
      match decodeRequest r with
      | .ok i => exec i s
      | .error e => .next (refuse (misuseOf e) s)

/-- s with the request of an opcode-table word on offer, so that the very next step accepts exactly it: the block IDLE
with no event outstanding, and the record first among the host's offers (log 26). -/
def State.withFetchWord (s : State) (nbits w : Nat) : State :=
  { s with phase := .idle, outstanding := none, offers := tableRequest (w % 2 ^ nbits) :: s.offers }

end Sys2Proof.Machine
end

