-- ==== Sys2Proof/Safety.lean ====
section
/-!
DEFINITION. What claims about the machine are stated in: the spellings of each request, the events and bytes a step adds
to the history, and the invariants of a block: its sequencer, its power state, its history and its result record.
-/

namespace Sys2Proof.Machine

/-! ### Spellings (R119) -/

/-- i is a spelling of `READ_REG a` (R119, R228 to R230). -/
def SpellsReadReg (a : Addr) (i : Instr) : Prop :=
  i = .readReg a ∨ (i = .readFault ∧ a = 0x00#5) ∨ (i = .readDiag ∧ a = 0x01#5) ∨ (i = .readIc1 ∧ a = 0x02#5)
    ∨ (i = .readIc2 ∧ a = 0x03#5) ∨ (i = .readIc3 ∧ a = 0x04#5) ∨ (i = .readIc4 ∧ a = 0x05#5)

/-- i is a spelling of `WRITE_REG a, d` (R119, R231). -/
def SpellsWriteReg (a : Addr) (d : Byte) (i : Instr) : Prop :=
  i = .writeReg a d ∨ (i = .writeIc1 d ∧ a = 0x02#5) ∨ (i = .writeIc2 d ∧ a = 0x03#5)
    ∨ (i = .writeIc3 d ∧ a = 0x04#5) ∨ (i = .writeIc4 d ∧ a = 0x05#5)

/-- i is a spelling of MODIFY_REG of register a with the transformation f (R119, R270). -/
def SpellsModifyReg (a : Addr) (f : Transform 8) (i : Instr) : Prop :=
  i = .modifyReg a f
    ∨ (∃ m d, f = .merge m d ∧ ((i = .modifyIc1 m d ∧ a = 0x02#5) ∨ (i = .modifyIc2 m d ∧ a = 0x03#5)
        ∨ (i = .modifyIc3 m d ∧ a = 0x04#5) ∨ (i = .modifyIc4 m d ∧ a = 0x05#5)))
    ∨ (∃ m, f = .merge m m ∧ i = .setBits a m)
    ∨ (∃ m, f = .merge m 0x00#8 ∧ i = .clrBits a m)

/-- i is a spelling of `WRITE_CONFIG c` on an instance with parameters p (R119). -/
def SpellsWriteConfig (p : Params) (c : Cfg) (i : Instr) : Prop :=
  i = .writeConfig c ∨ (i = .writeDefaults ∧ c = defaultConfig p)

/-- The seven reserved operation codes (R332). -/
def ReservedOpc (i : Instr) : Prop :=
  ∃ rest, i = .reservedOpc0 rest ∨ i = .reservedOpcA rest ∨ i = .reservedOpcB rest ∨ i = .reservedOpcC rest
    ∨ i = .reservedOpcD rest ∨ i = .reservedOpcE rest ∨ i = .reservedOpcF rest

/-- i is a request (R111, R119), not a frame on the wire. -/
def IsRequest : Instr → Prop
  | .wireRead _ => False
  | .wireWrite _ _ => False
  | _ => True

/-- i is AWAKEN or SLEEP, the two requests of the sleep FSM (R300). -/
def IsPowerRequest (i : Instr) : Prop := i = .awaken ∨ i = .sleep

/-- i writes the configuration bytes read so far, `b[0..3]` (R262, R276). -/
def ReadsConfig : Instr → Prop
  | .readConfig => True
  | .modifyConfig _ => True
  | _ => False

/-- i writes the configuration to the IC, and `res.wcfg` (R265, R276). -/
def WritesConfig : Instr → Prop
  | .writeConfig _ => True
  | .writeDefaults => True
  | .modifyConfig _ => True
  | _ => False

/-- i reads one register, and writes `res.value` (R225, R270, R280). -/
def ReadsValue (i : Instr) : Prop :=
  (∃ a, SpellsReadReg a i) ∨ (∃ a f, SpellsModifyReg a f i) ∨ i = .clearFault

/-- i writes one register, and `res.wvalue` (R226, R270, R280). -/
def WritesValue (i : Instr) : Prop :=
  (∃ a d, SpellsWriteReg a d i) ∨ (∃ a f, SpellsModifyReg a f i) ∨ i = .clearFault

/-! ### The history -/

/-- The bytes an event puts on the wire (R11). -/
def eventBytes : Event → List Byte
  | .exchange sent => sent
  | .pinSet _ => []
  | .delay _ => []

/-- The bytes a list of events puts on the wire, in order. -/
def wireBytes (es : List Event) : List Byte := es.flatMap eventBytes

/-- The event is an exchange. -/
def isExchange : Event → Bool
  | .exchange _ => true
  | .pinSet _ => false
  | .delay _ => false

/-- The bytes are whole frames that the block may send: each decodes to a well-formed wire form (R116, R121). -/
def legalFrames : List Byte → Bool
  | [] => true
  | [_] => false
  | c :: d :: rest =>
    (match decodeFrame (frameBits [c, d]) with
      | .ok i => i.wf
      | .error _ => false) && legalFrames rest

/-- The last event issued, in a step that finds `before` outstanding and issues es. -/
def lastIssued (before : Option Event) (es : List Event) : Option Event := es.getLast?.or before

/-- The number of exchanges that a step which answers every event answers: those it issues, and the one it found
outstanding. -/
def exchangesAnswered (before : Option Event) (es : List Event) : Nat := (before.toList ++ es).countP isExchange

/-- An event the block may issue (R11, R116, R300): an exchange of 2 or 8 bytes in legal frames, a pin set, or one of the
two delays. -/
def legalEvent (p : Params) : Event → Bool
  | .exchange sent => (sent.length == 2 || sent.length == 8) && legalFrames sent
  | .pinSet _ => p.hasSleepPin
  | .delay us => p.hasSleepPin && (us == p.tWakeUs || us == p.tSleepUs)

/-! ### Status slots -/

/-- `res.st` once the status bytes bs have been recorded, in frame order. -/
def statusSlots (bs : List Byte) : Vector (Option Byte) 8 := Vector.ofFn fun i => bs[i.val]?

/-- Two lists of transport answers that differ in status bytes alone: the same kinds of answer, the same contents bytes
(positions 1, 3, 5 and 7). -/
def SameButStatus : List BusReply → List BusReply → Prop
  | [], [] => True
  | .ok x :: l, .ok y :: m => x[1] = y[1] ∧ x[3] = y[3] ∧ x[5] = y[5] ∧ x[7] = y[7] ∧ SameButStatus l m
  | .err :: l, .err :: m => SameButStatus l m
  | .notYet :: l, .notYet :: m => SameButStatus l m
  | _, _ => False

/-- A state without what status bytes write: `rx`, `res.st`, `res.fault`, and the answers still to come. -/
def forgetStatus (s : State) : State :=
  { s with rx := #v[0, 0, 0, 0, 0, 0, 0, 0], transport := []
           res := { s.res with st := Result.cleared.st, fault := none } }

/-! ### What an acceptance leaves -/

/-- The latch of a request with an operation code and an address whose operand fields are those on offer (R110, R220). -/
def latchFrom (r : Request) (opc : BitVec 4) (a : Addr) : ReqLatch :=
  ⟨opc, a, r.data, r.mask, r.cfg, r.cfgMask, r.regFn, r.cfgFn⟩

/-- The latch with the transformation of MODIFY_REG in it (R22, R114). -/
def latchRegTransform (f : Transform 8) (q : ReqLatch) : ReqLatch :=
  match f with
  | .merge m d => { q with mask := m, data := d, regFn := none }
  | .table t => { q with regFn := some t }

/-- The latch with the transformation of MODIFY_CONFIG in it (R22, R114). -/
def latchCfgTransform (f : Transform 32) (q : ReqLatch) : ReqLatch :=
  match f with
  | .merge m c => { q with cfgMask := m, cfg := c, cfgFn := none }
  | .table t => { q with cfgFn := some t }

/-- The state after a MISUSE: the offer is taken, the result says so, and nothing else changes (R220, R332). -/
def misused (sub : MisuseSub) (s : State) : State :=
  { s with offers := s.offers.tail, res := { Result.cleared with err := .misuse, sub := some sub } }

/-- A record with this operation code, RSV = 0 and an ADDR that is not 0 is refused with RESERVED_BITS (R333). -/
def RefusesAddress (opc : BitVec 4) (s : State) : Prop :=
  ∀ r more, s.offers = r :: more → headerOpc r.header = opc → headerRsv r.header = 0#7 → headerAddr r.header ≠ 0#5 →
    step s = .next (misused .reservedBits s)

/-- The mark after an exchange has been issued (R28, R307). -/
def markAfterExchange (s : State) : Bool :=
  s.asleepAccess || (s.params.hasSleepPin && decide (s.sleep ≠ .awake))

/-- The read frames of IC1 to IC4 (R262). -/
def bundleReadFrames : List (List Byte) :=
  [[0x44#8, 0x00#8], [0x46#8, 0x00#8], [0x48#8, 0x00#8], [0x4A#8, 0x00#8]]

/-- The write frames of IC1 to IC4 for a configuration (R265). -/
def bundleWriteFrames (c : Cfg) : List (List Byte) :=
  [[0x04#8, cfgByte c 0], [0x06#8, cfgByte c 1], [0x08#8, cfgByte c 2], [0x0A#8, cfgByte c 3]]

/-- Four discrete responses as one batched response (R75). -/
def batchOf (r0 r1 r2 r3 : Bytes8) : Bytes8 :=
  #v[r0[0], r0[1], r1[0], r1[1], r2[0], r2[1], r3[0], r3[1]]

/-- How many exchanges, pin sets and delays a request issues that passes VALIDATE and meets no error (R391). -/
def eventCounts (s : State) : Instr → Nat × Nat × Nat
  | .readReg _ | .readFault | .readDiag | .readIc1 | .readIc2 | .readIc3 | .readIc4 => (1, 0, 0)
  | .writeReg _ _ | .writeIc1 _ | .writeIc2 _ | .writeIc3 _ | .writeIc4 _ => (1, 0, 0)
  | .modifyReg _ _ | .modifyIc1 _ _ | .modifyIc2 _ _ | .modifyIc3 _ _ | .modifyIc4 _ _ => (2, 0, 0)
  | .setBits _ _ | .clrBits _ _ | .clearFault => (2, 0, 0)
  | .readConfig | .writeConfig _ | .writeDefaults => (if s.params.batched then 1 else 4, 0, 0)
  | .modifyConfig _ => (if s.params.batched then 2 else 8, 0, 0)
  | .awaken => if s.params.hasSleepPin = true ∧ s.sleep ≠ .awake then (0, 1, 1) else (0, 0, 0)
  | .sleep => if s.params.hasSleepPin = true ∧ s.sleep ≠ .asleep then (0, 1, 1) else (0, 0, 0)
  | .reservedOpc0 _ | .reservedOpcA _ | .reservedOpcB _ | .reservedOpcC _ | .reservedOpcD _ | .reservedOpcE _
  | .reservedOpcF _ => (0, 0, 0)
  | .wireRead _ | .wireWrite _ _ => (1, 0, 0)

/-- How many bytes such a request puts on the wire, in either variant (R391). -/
def bytesOnWire : Instr → Nat
  | .readReg _ | .readFault | .readDiag | .readIc1 | .readIc2 | .readIc3 | .readIc4 => 2
  | .writeReg _ _ | .writeIc1 _ | .writeIc2 _ | .writeIc3 _ | .writeIc4 _ => 2
  | .modifyReg _ _ | .modifyIc1 _ _ | .modifyIc2 _ _ | .modifyIc3 _ _ | .modifyIc4 _ _ => 4
  | .setBits _ _ | .clrBits _ _ | .clearFault => 4
  | .readConfig | .writeConfig _ | .writeDefaults => 8
  | .modifyConfig _ => 16
  | .awaken | .sleep => 0
  | .reservedOpc0 _ | .reservedOpcA _ | .reservedOpcB _ | .reservedOpcC _ | .reservedOpcD _ | .reservedOpcE _
  | .reservedOpcF _ => 0
  | .wireRead _ | .wireWrite _ _ => 2

/-- The same counts of a list of events. -/
def countEvents (es : List Event) : Nat × Nat × Nat :=
  (es.countP isExchange,
   es.countP fun e => match e with
     | .pinSet _ => true
     | .exchange _ => false
     | .delay _ => false,
   es.countP fun e => match e with
     | .delay _ => true
     | .exchange _ => false
     | .pinSet _ => false)

/-! ### The header a latch stands for -/

/-- The header of the latched request, RSV being 0 (R110, R220). -/
def latchHeader (q : ReqLatch) : Header := q.opc ++ 0#7 ++ q.addr

/-! ### Invariants -/

/-- The sequencer stands where its phase says (R12, R23, R220): IDLE with nothing outstanding, or BUSY with a latched
request that VALIDATE accepts and the event of its k-th stage outstanding. -/
structure SequencerInv (s : State) : Prop where
  idleQuiet : s.phase = .idle → s.outstanding = none
  busyValid : s.phase = .busy → validate (latchHeader s.req) = none
  busyStage : s.phase = .busy → ∃ p g, programOf s.req.opc = some p ∧ 1 ≤ s.k.toNat
    ∧ (p.stages s)[s.k.toNat - 1]? = some g ∧ s.outstanding = some (g.event s)

/-- The power state of the block (R21, R29, R300, R301, R306, R309). Outside the wait for a delay, S and the level last
driven agree unless S is UNKNOWN; during it the line is driven and S is not yet changed. -/
structure PowerInv (s : State) : Prop where
  absentPin : s.params.hasSleepPin = false → s.sleep = .awake
  latchExists : s.sleepLatch.isSome = s.params.hasSleepPin
  latchSpeaks : (∀ us, s.outstanding ≠ some (.delay us)) →
    (s.sleep = .awake → s.params.hasSleepPin = true → s.sleepLatch = some .high)
      ∧ (s.sleep = .asleep → s.sleepLatch = some .low)
  delaying : ∀ us, s.outstanding = some (.delay us) →
    (s.req.opc = 0x8#4 ∧ us = s.params.tWakeUs ∧ s.sleep ≠ .awake ∧ s.sleepLatch = some .high)
      ∨ (s.req.opc = 0x9#4 ∧ us = s.params.tSleepUs ∧ s.sleep ≠ .asleep ∧ s.sleepLatch = some .low)

/-- The history ends with the event the block waits for (R11, R338). -/
structure HistoryInv (s : State) : Prop where
  lastWaitedFor : s.phase = .busy → s.history.getLast? = s.outstanding

/-- How many frames an exchange of the latched request holds (R105, R261). -/
def framesPerExchange (s : State) : Nat :=
  if s.params.batched = true ∧ (s.req.opc = 0x4#4 ∨ s.req.opc = 0x5#4 ∨ s.req.opc = 0x6#4) then 4 else 1

/-- The result record is consistent (R26, R149, R332, R334, R336). -/
structure ResultInv (s : State) : Prop where
  frameBound : s.res.nframes.toNat ≤ 8
  statusKnown : ∀ j (h : j < 8), (s.res.st[j]).isSome = decide (j < s.res.nframes.toNat)
  exchangeBound : s.res.nexch.toNat ≤ s.res.nframes.toNat
  subIffMisuse : s.res.sub.isSome = decide (s.res.err = .misuse)
  indexOnlyForTransport : s.res.err ≠ .transport → s.res.xidx = 0#4
  unknownOnlyForTransport : s.res.dsu = true → s.res.err = .transport
  idleFault : s.phase = .idle → s.res.fault = aggregate s.res.st s.res.nframes
  busyClear : s.phase = .busy → s.res.err = .ok ∧ s.res.fault = none ∧ s.res.dsu = false
  busyCount : s.phase = .busy → ∀ sent, s.outstanding = some (.exchange sent) →
    s.res.nexch.toNat + 1 = s.k.toNat ∧ s.res.nframes.toNat = framesPerExchange s * (s.k.toNat - 1)
  busyPower : s.phase = .busy → s.req.opc = 0x8#4 ∨ s.req.opc = 0x9#4 →
    s.res.nexch = 0#4 ∧ s.res.nframes = 0#4

end Sys2Proof.Machine
end

