-- ==== Sys2Proof/Certificates/Slice0/Obligations.lean ====
section
/-!
DEFINITION. The statements about the model, for the provers. Each docstring names the rule of spec/ it formalises, or says
what it rests on. Unless a statement says otherwise it is about every state and so about every instance: the parameters
stand in State.
-/

open Sys2Proof Sys2Proof.Machine

/-! ### Encoding -/

/-- Decoding the words of an instruction gives the instruction back, and a pseudo-instruction's words give the request it
stands for; every operand, at every value. Rests on 30_encoding.md. -/
def Obligations.DecodeInvertsEncode : Prop :=
  ∀ (p : Params) (i : Instr), decode (encode p i) = .ok (expand p i)

/-- A record that decodes to an instruction has that instruction's header, bit for bit, so no header bit is ignored and each
header has one meaning. Rests on 30_encoding.md. -/
def Obligations.DecodedHeaderIsTheEncodedHeader : Prop :=
  ∀ (p : Params) (r : Request) (i : Instr), decodeRequest r = .ok i →
    ∃ q, encode p i = .req q ∧ q.header = r.header

/-- Words written out from the spec's encodings decode to the instructions they stand for: one request of each family, a
reserved operation code, and both wire forms. That the two FRAME16 rows are not read from a REQ header is log 15. -/
def Obligations.SpecWordsDecode : Prop :=
  decodeTableWord 16 0x1005 = some (.readReg 0x05#5)
    ∧ decodeTableWord 16 0x2002 = some (.writeReg 0x02#5 0x00#8)
    ∧ decodeTableWord 16 0x3004 = some (.modifyReg 0x04#5 (.merge 0x00#8 0x00#8))
    ∧ decodeTableWord 16 0x4000 = some .readConfig
    ∧ decodeTableWord 16 0x5000 = some (.writeConfig 0x00000000#32)
    ∧ decodeTableWord 16 0x6000 = some (.modifyConfig (.merge 0x00000000#32 0x00000000#32))
    ∧ decodeTableWord 16 0x7000 = some .clearFault
    ∧ decodeTableWord 16 0x8000 = some .awaken
    ∧ decodeTableWord 16 0x9000 = some .sleep
    ∧ decodeTableWord 16 0xF0FF = some (.reservedOpcF 0x0FF#12)
    ∧ decodeTableWord 16 0x1020 = none
    ∧ decode (.frame 0b0100101000000000#16) = .ok (.wireRead 0x05#5)
    ∧ decode (.frame 0b0000010001010001#16) = .ok (.wireWrite 0x02#5 0x51#8)

/-- Every record decodes to an instruction or is rejected with the sub-code VALIDATE gives its header (R115). -/
def Obligations.RejectedRecordsCarryTheValidateSubcode : Prop :=
  ∀ (r : Request) (e : DecodeError), decodeRequest r = .error e →
    ∃ sub, e = .misuse sub ∧ validate r.header = some sub

/-- VALIDATE sorts all 65536 headers: twenty are accepted, and each refusal's sub-code is that of the first check that fails
(R333, R332). -/
def Obligations.ValidateSortsEveryHeader : Prop :=
  ∀ h : Header,
    (validate h = none ↔ h.toNat ∈ [0x1000, 0x1001, 0x1002, 0x1003, 0x1004, 0x1005, 0x2002, 0x2003, 0x2004, 0x2005,
      0x3002, 0x3003, 0x3004, 0x3005, 0x4000, 0x5000, 0x6000, 0x7000, 0x8000, 0x9000])
    ∧ (validate h = some .reservedOpc ↔ h.toNat < 0x1000 ∨ 0xA000 ≤ h.toNat)
    ∧ (validate h = some .addrRange ↔ (0x1006 ≤ h.toNat ∧ h.toNat ≤ 0x101F)
        ∨ (0x2006 ≤ h.toNat ∧ h.toNat ≤ 0x201F) ∨ (0x3006 ≤ h.toNat ∧ h.toNat ≤ 0x301F))
    ∧ (validate h = some .readOnly ↔ h.toNat ∈ [0x2000, 0x2001, 0x3000, 0x3001])
    ∧ (validate h = some .reservedBits ↔ 0x1000 ≤ h.toNat ∧ h.toNat < 0xA000
        ∧ (if h.toNat < 0x4000 then 0x20 ≤ h.toNat % 0x1000 else h.toNat % 0x1000 ≠ 0))

/-- The framer laws, for every natural number as address (R142). That an integer address is a natural number, no value of
the spec being signed (R10), is the model's reading: log 25. -/
def Obligations.FramerLaws : Prop :=
  ∀ addr : Nat,
    cmdRead addr = cmdWrite addr ||| 0x40#8
    ∧ cmdRead addr &&& 0x40#8 = 0x40#8
    ∧ cmdWrite addr &&& 0x40#8 = 0x00#8
    ∧ ((cmdRead addr >>> 1) &&& 0x1F#8).toNat = addr % 32
    ∧ ((cmdWrite addr >>> 1) &&& 0x1F#8).toNat = addr % 32
    ∧ cmdRead addr &&& 0x81#8 = 0x00#8
    ∧ cmdWrite addr &&& 0x81#8 = 0x00#8

/-- DECODE_STATUS: 0xC0 alone is no fault, any other byte is a fault with its low six bits (R147); as a FaultStatus byte the
payload has FAULT_G and RSVD clear (R107, R152). -/
def Obligations.StatusDecoding : Prop :=
  decodeStatus 0xC0#8 = none
    ∧ (∀ s : Byte, s ≠ 0xC0#8 → decodeStatus s = some (s.extractLsb' 0 6))
    ∧ (∀ s : Byte, faultView (payload s) = s &&& 0x3F#8)

/-- AGG gives the first fault in frame order, and none if no recorded frame reports one; every completion puts it in
`res.fault` and keeps all the recorded status bytes in `res.st`, later faults among them (R149). -/
def Obligations.AggregateIsTheFirstFaultInFrameOrder : Prop :=
  (∀ (e : Err) (wrote : Bool) (s : State), (complete e wrote s).res.fault = aggregate s.res.st s.res.nframes
    ∧ (complete e wrote s).res.st = s.res.st ∧ (complete e wrote s).res.nframes = s.res.nframes)
  ∧ ∀ (bs : List Byte) (p : Payload), bs.length ≤ 8 →
    (aggregate (statusSlots bs) (BitVec.ofNat 4 bs.length) = none ↔ ∀ b ∈ bs, b = 0xC0#8)
    ∧ (aggregate (statusSlots bs) (BitVec.ofNat 4 bs.length) = some p ↔
        ∃ j, ∃ h : j < bs.length, decodeStatus bs[j] = some p
          ∧ ∀ i, (hi : i < j) → decodeStatus (bs[i]'(Nat.lt_trans hi h)) = none)

/-! ### Register fields -/

/-- The field laws (R162), for any two fields of one register of a LAYOUT that covers its bytes. -/
def Obligations.FieldLaws : Prop :=
  ∀ (l : Layout) (r : RegName) (f g : LayoutRow) (v x y : Byte), registerCovered l r = true →
    f ∈ registerRows l r → g ∈ registerRows l r →
    getField (setField v f x) f = x &&& fieldMask f
    ∧ setField v f (getField v f) = v
    ∧ (g ≠ f → getField (setField v f x) g = getField v g)
    ∧ setField (setField v f x) f y = setField v f y

/-- The typed value and the byte carry the same bits, under every LAYOUT that covers the register (R163): reserved bits and
codes without a meaning included. -/
def Obligations.FieldRecordsAndBytesRoundTrip : Prop :=
  ∀ (l : Layout) (r : RegName), registerCovered l r = true →
    (∀ b : Byte, toByte l r (fromByte l r b) = b)
    ∧ (∀ t : List (FieldName × Byte), t.map Prod.fst = (registerRows l r).map LayoutRow.field →
        (∀ x ∈ (registerRows l r).zip t, x.2.2 &&& fieldMask x.1 = x.2.2) →
        fromByte l r (toByte l r t) = t)

/-- The codecs of the default LAYOUT give every field the bits of its row, and lose nothing, either way (R164 to R169 with
R40 to R45 and R163). The positions are the spec's general knowledge: log 19. -/
def Obligations.DefaultCodecsRoundTrip : Prop :=
  (∀ b : Byte,
    fromByte Config.defaultLayout .fault b =
      (let t := fromByteFault b
       [(.rsvd, flagAt t.rsvd 0), (.faultG, flagAt t.faultG 0), (.otw, flagAt t.otw 0), (.uvlo, flagAt t.uvlo 0),
        (.cpuv, flagAt t.cpuv 0), (.ocp, flagAt t.ocp 0), (.tsd, flagAt t.tsd 0), (.ol, flagAt t.ol 0)])
    ∧ fromByte Config.defaultLayout .diag b =
      (let t := fromByteDiag b
       [(.ol1, flagAt t.ol1 0), (.ol2, flagAt t.ol2 0), (.itrip1, flagAt t.itrip1 0), (.itrip2, flagAt t.itrip2 0),
        (.ocpH1, flagAt t.ocpH1 0), (.ocpL1, flagAt t.ocpL1 0), (.ocpH2, flagAt t.ocpH2 0), (.ocpL2, flagAt t.ocpL2 0)])
    ∧ fromByte Config.defaultLayout .ic1 b =
      (let t := fromByteIc1 b
       [(.toff, t.toff.setWidth 8), (.spiIn, flagAt t.spiIn 0), (.sr, t.sr.setWidth 8), (.mode, t.mode.setWidth 8)])
    ∧ fromByte Config.defaultLayout .ic2 b =
      (let t := fromByteIc2 b
       [(.itripRep, flagAt t.itripRep 0), (.tsdMode, flagAt t.tsdMode 0), (.otwRep, flagAt t.otwRep 0),
        (.disCpuv, flagAt t.disCpuv 0), (.ocpTretry, t.ocpTretry.setWidth 8), (.ocpMode, t.ocpMode.setWidth 8)])
    ∧ fromByte Config.defaultLayout .ic3 b =
      (let t := fromByteIc3 b
       [(.clrFlt, flagAt t.clrFlt 0), (.lock, t.lock.setWidth 8), (.out1Dis, flagAt t.out1Dis 0),
        (.out2Dis, flagAt t.out2Dis 0), (.enIn1, flagAt t.enIn1 0), (.phIn2, flagAt t.phIn2 0)])
    ∧ fromByte Config.defaultLayout .ic4 b =
      (let t := fromByteIc4 b
       [(.rsvd, flagAt t.rsvd 0), (.enOlp, flagAt t.enOlp 0), (.olpDly, flagAt t.olpDly 0), (.enOla, flagAt t.enOla 0),
        (.itripLvl, t.itripLvl.setWidth 8), (.disItrip, t.disItrip.setWidth 8)]))
  ∧ (∀ b : Byte, toByteFault (fromByteFault b) = b ∧ toByteDiag (fromByteDiag b) = b ∧ toByteIc1 (fromByteIc1 b) = b
    ∧ toByteIc2 (fromByteIc2 b) = b ∧ toByteIc3 (fromByteIc3 b) = b ∧ toByteIc4 (fromByteIc4 b) = b)
  ∧ (∀ t, fromByteFault (toByteFault t) = t) ∧ (∀ t, fromByteDiag (toByteDiag t) = t)
  ∧ (∀ t, fromByteIc1 (toByteIc1 t) = t) ∧ (∀ t, fromByteIc2 (toByteIc2 t) = t)
  ∧ (∀ t, fromByteIc3 (toByteIc3 t) = t) ∧ (∀ t, fromByteIc4 (toByteIc4 t) = t)

/-- Under every LAYOUT a block may have, ENUM_DECODE and ENUM_ENCODE are inverse bijections between the codes of a field's
width and its meanings, whatever the register holds GET gives a code with a meaning, and LOCK has one code that unlocks,
one that locks, and every other keeps itself (R170, R171). The default LAYOUT is one, with the codes that R170 and R171
name. What a LAYOUT may be is the model's reading: log 28. The default codes are the spec's general knowledge: log 19.
-/
def Obligations.EnumerationsAreBijections : Prop :=
  (∀ (l : Layout) (f : LayoutRow) (table : List Meaning), layoutOk l = true → f ∈ l → f.kind = .enum table →
    (∀ v : Byte, (getField v f).toNat < 2 ^ fieldWidth f)
    ∧ (∀ c : Byte, c.toNat < 2 ^ fieldWidth f → ∃ m ∈ table, enumDecode f c = some m ∧ enumEncode f m = some c)
    ∧ (∀ c : Byte, 2 ^ fieldWidth f ≤ c.toNat → enumDecode f c = none)
    ∧ (∀ m ∈ table, ∃ c : Byte, enumEncode f m = some c ∧ enumDecode f c = some m ∧ c.toNat < 2 ^ fieldWidth f)
    ∧ (∀ m, m ∉ table → enumEncode f m = none)
    ∧ (f.field = .lock → ∃ u k : Byte, u ≠ k ∧ enumDecode f u = some .unlock ∧ enumDecode f k = some .lock
        ∧ ∀ c : Byte, c.toNat < 2 ^ fieldWidth f → c ≠ u → c ≠ k → enumDecode f c = some (.noEffect c)))
  ∧ layoutOk Config.defaultLayout = true
  ∧ (∃ f, findField Config.defaultLayout .ic1 .sr = some f ∧ enumDecode f 4#8 = some (.riseTime 108))
  ∧ (∃ f, findField Config.defaultLayout .ic4 .itripLvl = some f ∧ enumEncode f (.tripLevel 65) = some 2#8)
  ∧ (∃ f, findField Config.defaultLayout .ic3 .lock = some f ∧ enumDecode f 0b011#8 = some .unlock
      ∧ enumDecode f 0b110#8 = some .lock)

/-- CONFIG_PACK and CONFIG_UNPACK are inverse, and byte i of a packed configuration is that of IC(i+1) (R175, R176, R113).
-/
def Obligations.ConfigurationPacking : Prop :=
  (∀ a b c d : Byte, configUnpack (configPack a b c d) = (a, b, c, d)
    ∧ (configPack a b c d).toNat = a.toNat + b.toNat * 2 ^ 8 + c.toNat * 2 ^ 16 + d.toNat * 2 ^ 24)
  ∧ (∀ c : Cfg, configPack (configUnpack c).1 (configUnpack c).2.1 (configUnpack c).2.2.1 (configUnpack c).2.2.2 = c)

/-- The transformation operand stands for every pure function, on 8 and on 32 bits alike (R22, R114). The finite table as
the plain-data form is the model's choice: log 11. -/
def Obligations.EveryPureFunctionIsATransformation : Prop :=
  ∀ (n : Nat) (f : BitVec n → BitVec n), ∃ t : Transform n, ∀ v, applyTransform t v = f v

/-- The encoded transformation takes the bits under the mask from the data and keeps the others (R114). -/
def Obligations.MergeTakesTheMaskedBits : Prop :=
  ∀ (n i : Nat) (m d v : BitVec n), (mergeBits m d v).getLsbD i = if m.getLsbD i then d.getLsbD i else v.getLsbD i

/-! ### The requests: each from IDLE, in every spelling, on every answer of the environment -/

/-- READ_REG (R225) and READ_FAULT, READ_DIAG, READ_IC1 to READ_IC4 (R228 to R230): the whole next state on a good answer,
on a transport error, and on an address out of range. The operand fields a record holds beside those named, the buffer
positions an exchange does not use, and the lists of answers and offers are the model's choice: logs 10, 9, 3 and 12. -/
def Obligations.ReadRegReadsOneRegister : Prop :=
  ∀ (a : Addr) (i : Instr) (s : State), SpellsReadReg a i → s.phase = .idle →
    (∀ p, encode p i = .req { Request.zero with header := 0x1000#16 ||| a.setWidth 16 })
    ∧ (5 < a.toNat → exec i s = .next (misused .addrRange s))
    ∧ (∀ (rx : Bytes8) (rest : List BusReply), a.toNat ≤ 5 → s.transport = .ok rx :: rest →
      exec i s = .next { s with
        phase := .idle, k := 1#4, outstanding := none, req := latchFrom (offered s) 0x1#4 a
        tx := loadTx [cmdRead a.toNat, 0x00#8] s.tx, rx := loadRx 2 rx s.rx
        res := { Result.cleared with value := rx[1], st := statusSlots [rx[0]], nexch := 1#4, nframes := 1#4,
                                     fault := decodeStatus rx[0] }
        asleepAccess := markAfterExchange s
        history := s.history ++ [.exchange [cmdRead a.toNat, 0x00#8]]
        offers := s.offers.tail, transport := rest })
    ∧ (∀ rest : List BusReply, a.toNat ≤ 5 → s.transport = .err :: rest →
      exec i s = .next { s with
        phase := .idle, k := 1#4, outstanding := none, req := latchFrom (offered s) 0x1#4 a
        tx := loadTx [cmdRead a.toNat, 0x00#8] s.tx
        res := { Result.cleared with err := .transport }
        asleepAccess := markAfterExchange s
        history := s.history ++ [.exchange [cmdRead a.toNat, 0x00#8]]
        offers := s.offers.tail, transport := rest })

/-- WRITE_REG (R226) and WRITE_IC1 to WRITE_IC4 (R231): the whole next state on a good answer, on a transport error (the
device state is then unknown), and on an address that may not be written. The operand fields a record holds beside those
named, the buffer positions an exchange does not use, and the lists of answers and offers are the model's choice: logs
10, 9, 3 and 12. -/
def Obligations.WriteRegWritesOneRegister : Prop :=
  ∀ (a : Addr) (d : Byte) (i : Instr) (s : State), SpellsWriteReg a d i → s.phase = .idle →
    (∀ p, encode p i = .req { Request.zero with header := 0x2000#16 ||| a.setWidth 16, data := d })
    ∧ (5 < a.toNat → exec i s = .next (misused .addrRange s))
    ∧ (a.toNat ≤ 1 → exec i s = .next (misused .readOnly s))
    ∧ (∀ (rx : Bytes8) (rest : List BusReply), 2 ≤ a.toNat → a.toNat ≤ 5 → s.transport = .ok rx :: rest →
      exec i s = .next { s with
        phase := .idle, k := 1#4, outstanding := none
        req := { latchFrom (offered s) 0x2#4 a with data := d }
        tx := loadTx [cmdWrite a.toNat, d] s.tx, rx := loadRx 2 rx s.rx
        res := { Result.cleared with wvalue := d, st := statusSlots [rx[0]], nexch := 1#4, nframes := 1#4,
                                     fault := decodeStatus rx[0] }
        asleepAccess := markAfterExchange s
        history := s.history ++ [.exchange [cmdWrite a.toNat, d]]
        offers := s.offers.tail, transport := rest })
    ∧ (∀ rest : List BusReply, 2 ≤ a.toNat → a.toNat ≤ 5 → s.transport = .err :: rest →
      exec i s = .next { s with
        phase := .idle, k := 1#4, outstanding := none
        req := { latchFrom (offered s) 0x2#4 a with data := d }
        tx := loadTx [cmdWrite a.toNat, d] s.tx
        res := { Result.cleared with wvalue := d, err := .transport, dsu := true }
        asleepAccess := markAfterExchange s
        history := s.history ++ [.exchange [cmdWrite a.toNat, d]]
        offers := s.offers.tail, transport := rest })

/-- MODIFY_REG (R270, R271), its spellings (R119), and every pure transformation (R114): read, transform, write back; the
write is issued whatever the read reported. The operand fields a record holds beside those named, the buffer positions
an exchange does not use, and the lists of answers and offers are the model's choice: logs 10, 9, 3 and 12. -/
def Obligations.ModifyRegReadsTransformsAndWritesBack : Prop :=
  ∀ (a : Addr) (f : Transform 8) (i : Instr) (s : State), SpellsModifyReg a f i → s.phase = .idle →
    (∀ p, ∃ q, encode p i = .req q ∧ q.header = 0x3000#16 ||| a.setWidth 16 ∧ reqRegTransform q = f)
    ∧ (5 < a.toNat → exec i s = .next (misused .addrRange s))
    ∧ (a.toNat ≤ 1 → exec i s = .next (misused .readOnly s))
    ∧ (∀ (r0 r1 : Bytes8) (rest : List BusReply), 2 ≤ a.toNat → a.toNat ≤ 5 →
      s.transport = .ok r0 :: .ok r1 :: rest →
      exec i s = .next { s with
        phase := .idle, k := 2#4, outstanding := none
        req := latchRegTransform f (latchFrom (offered s) 0x3#4 a)
        tx := loadTx [cmdWrite a.toNat, applyTransform f r0[1]] s.tx, rx := loadRx 2 r1 s.rx
        res := { Result.cleared with value := r0[1], wvalue := applyTransform f r0[1],
                                     st := statusSlots [r0[0], r1[0]], nexch := 2#4, nframes := 2#4,
                                     fault := firstFault [some r0[0], some r1[0]] }
        asleepAccess := markAfterExchange s
        history := s.history ++ [.exchange [cmdRead a.toNat, 0x00#8],
                                 .exchange [cmdWrite a.toNat, applyTransform f r0[1]]]
        offers := s.offers.tail, transport := rest })
    ∧ (∀ rest : List BusReply, 2 ≤ a.toNat → a.toNat ≤ 5 → s.transport = .err :: rest →
      exec i s = .next { s with
        phase := .idle, k := 1#4, outstanding := none
        req := latchRegTransform f (latchFrom (offered s) 0x3#4 a)
        tx := loadTx [cmdRead a.toNat, 0x00#8] s.tx
        res := { Result.cleared with err := .transport }
        asleepAccess := markAfterExchange s
        history := s.history ++ [.exchange [cmdRead a.toNat, 0x00#8]]
        offers := s.offers.tail, transport := rest })
    ∧ (∀ (r0 : Bytes8) (rest : List BusReply), 2 ≤ a.toNat → a.toNat ≤ 5 → s.transport = .ok r0 :: .err :: rest →
      exec i s = .next { s with
        phase := .idle, k := 2#4, outstanding := none
        req := latchRegTransform f (latchFrom (offered s) 0x3#4 a)
        tx := loadTx [cmdWrite a.toNat, applyTransform f r0[1]] s.tx, rx := loadRx 2 r0 s.rx
        res := { Result.cleared with value := r0[1], wvalue := applyTransform f r0[1], err := .transport, dsu := true,
                                     xidx := 1#4, st := statusSlots [r0[0]], nexch := 1#4, nframes := 1#4,
                                     fault := decodeStatus r0[0] }
        asleepAccess := markAfterExchange s
        history := s.history ++ [.exchange [cmdRead a.toNat, 0x00#8],
                                 .exchange [cmdWrite a.toNat, applyTransform f r0[1]]]
        offers := s.offers.tail, transport := rest })

/-- CLEAR_FAULT (R280): read IC3, set the clear-fault bit of the instance, write back. The operand fields a record holds
beside those named, the buffer positions an exchange does not use, and the lists of answers and offers are the model's
choice: logs 10, 9, 3 and 12. -/
def Obligations.ClearFaultSetsTheClearFaultBit : Prop :=
  ∀ s : State, s.phase = .idle →
    (∀ p, encode p .clearFault = .req { Request.zero with header := 0x7000#16 })
    ∧ RefusesAddress 0x7#4 s
    ∧ (∀ (r0 r1 : Bytes8) (rest : List BusReply), s.transport = .ok r0 :: .ok r1 :: rest →
      exec .clearFault s = .next { s with
        phase := .idle, k := 2#4, outstanding := none, req := latchFrom (offered s) 0x7#4 0x00#5
        tx := loadTx [0x08#8, r0[1] ||| (1#8 <<< s.params.clrFltBit.val)] s.tx, rx := loadRx 2 r1 s.rx
        res := { Result.cleared with value := r0[1], wvalue := r0[1] ||| (1#8 <<< s.params.clrFltBit.val),
                                     st := statusSlots [r0[0], r1[0]], nexch := 2#4, nframes := 2#4,
                                     fault := firstFault [some r0[0], some r1[0]] }
        asleepAccess := markAfterExchange s
        history := s.history ++ [.exchange [0x48#8, 0x00#8],
                                 .exchange [0x08#8, r0[1] ||| (1#8 <<< s.params.clrFltBit.val)]]
        offers := s.offers.tail, transport := rest })
    ∧ (∀ rest : List BusReply, s.transport = .err :: rest →
      exec .clearFault s = .next { s with
        phase := .idle, k := 1#4, outstanding := none, req := latchFrom (offered s) 0x7#4 0x00#5
        tx := loadTx [0x48#8, 0x00#8] s.tx
        res := { Result.cleared with err := .transport }
        asleepAccess := markAfterExchange s
        history := s.history ++ [.exchange [0x48#8, 0x00#8]]
        offers := s.offers.tail, transport := rest })
    ∧ (∀ (r0 : Bytes8) (rest : List BusReply), s.transport = .ok r0 :: .err :: rest →
      exec .clearFault s = .next { s with
        phase := .idle, k := 2#4, outstanding := none, req := latchFrom (offered s) 0x7#4 0x00#5
        tx := loadTx [0x08#8, r0[1] ||| (1#8 <<< s.params.clrFltBit.val)] s.tx, rx := loadRx 2 r0 s.rx
        res := { Result.cleared with value := r0[1], wvalue := r0[1] ||| (1#8 <<< s.params.clrFltBit.val),
                                     err := .transport, dsu := true, xidx := 1#4, st := statusSlots [r0[0]],
                                     nexch := 1#4, nframes := 1#4, fault := decodeStatus r0[0] }
        asleepAccess := markAfterExchange s
        history := s.history ++ [.exchange [0x48#8, 0x00#8],
                                 .exchange [0x08#8, r0[1] ||| (1#8 <<< s.params.clrFltBit.val)]]
        offers := s.offers.tail, transport := rest })

/-- READ_CONFIG (R262, R263), discrete and batched, on good answers and on a transport error at any exchange. The operand
fields a record holds beside those named, the buffer positions an exchange does not use, and the lists of answers and
offers are the model's choice: logs 10, 9, 3 and 12; that the bytes b[0..3] are state which a batched read leaves as it
was is the model's reading: log 8. -/
def Obligations.ReadConfigReadsTheBundle : Prop :=
  ∀ s : State, s.phase = .idle →
    (∀ p, encode p .readConfig = .req { Request.zero with header := 0x4000#16 })
    ∧ RefusesAddress 0x4#4 s
    ∧ (∀ (r0 r1 r2 r3 : Bytes8) (rest : List BusReply), s.params.batched = false →
      s.transport = .ok r0 :: .ok r1 :: .ok r2 :: .ok r3 :: rest →
      exec .readConfig s = .next { s with
        phase := .idle, k := 4#4, outstanding := none, req := latchFrom (offered s) 0x4#4 0x00#5
        tx := loadTx [0x4A#8, 0x00#8] s.tx, rx := loadRx 2 r3 s.rx, bundle := #v[r0[1], r1[1], r2[1], r3[1]]
        res := { Result.cleared with cfg := configPack r0[1] r1[1] r2[1] r3[1],
                                     st := statusSlots [r0[0], r1[0], r2[0], r3[0]], nexch := 4#4, nframes := 4#4,
                                     fault := firstFault [some r0[0], some r1[0], some r2[0], some r3[0]] }
        asleepAccess := markAfterExchange s
        history := s.history ++ bundleReadFrames.map .exchange
        offers := s.offers.tail, transport := rest })
    ∧ (∀ (rx : Bytes8) (rest : List BusReply), s.params.batched = true → s.transport = .ok rx :: rest →
      exec .readConfig s = .next { s with
        phase := .idle, k := 1#4, outstanding := none, req := latchFrom (offered s) 0x4#4 0x00#5
        tx := loadTx bundleReadFrames.flatten s.tx, rx := loadRx 8 rx s.rx
        res := { Result.cleared with cfg := configPack rx[1] rx[3] rx[5] rx[7],
                                     st := statusSlots [rx[0], rx[2], rx[4], rx[6]], nexch := 1#4, nframes := 4#4,
                                     fault := firstFault [some rx[0], some rx[2], some rx[4], some rx[6]] }
        asleepAccess := markAfterExchange s
        history := s.history ++ [.exchange bundleReadFrames.flatten]
        offers := s.offers.tail, transport := rest })
    ∧ (∀ (rs : List Bytes8) (rest : List BusReply), s.params.batched = false → rs.length < 4 →
      s.transport = rs.map .ok ++ .err :: rest →
      ∃ t, exec .readConfig s = .next t ∧ t.phase = .idle
        ∧ t.res = { Result.cleared with err := .transport, xidx := BitVec.ofNat 4 rs.length,
                                        nexch := BitVec.ofNat 4 rs.length, nframes := BitVec.ofNat 4 rs.length,
                                        st := statusSlots (rs.map fun r => r[0]),
                                        fault := firstFault (rs.map fun r => some r[0]) }
        ∧ t.history = s.history ++ (bundleReadFrames.take (rs.length + 1)).map .exchange
        ∧ t.transport = rest ∧ t.sleep = s.sleep ∧ t.sleepLatch = s.sleepLatch)
    ∧ (∀ rest : List BusReply, s.params.batched = true → s.transport = .err :: rest →
      exec .readConfig s = .next { s with
        phase := .idle, k := 1#4, outstanding := none, req := latchFrom (offered s) 0x4#4 0x00#5
        tx := loadTx bundleReadFrames.flatten s.tx
        res := { Result.cleared with err := .transport }
        asleepAccess := markAfterExchange s
        history := s.history ++ [.exchange bundleReadFrames.flatten]
        offers := s.offers.tail, transport := rest })

/-- WRITE_CONFIG (R265 to R267) and WRITE_DEFAULTS (R119), discrete and batched, on good answers and on a transport error at
any exchange: a reported fault stops nothing, a failed exchange is the last one and leaves the device state unknown. The
operand fields a record holds beside those named, the buffer positions an exchange does not use, and the lists of
answers and offers are the model's choice: logs 10, 9, 3 and 12. -/
def Obligations.WriteConfigWritesTheBundle : Prop :=
  ∀ (c : Cfg) (i : Instr) (s : State), SpellsWriteConfig s.params c i → s.phase = .idle →
    encode s.params i = .req { Request.zero with header := 0x5000#16, cfg := c }
    ∧ RefusesAddress 0x5#4 s
    ∧ (∀ (r0 r1 r2 r3 : Bytes8) (rest : List BusReply), s.params.batched = false →
      s.transport = .ok r0 :: .ok r1 :: .ok r2 :: .ok r3 :: rest →
      exec i s = .next { s with
        phase := .idle, k := 4#4, outstanding := none, req := { latchFrom (offered s) 0x5#4 0x00#5 with cfg := c }
        tx := loadTx [0x0A#8, cfgByte c 3] s.tx, rx := loadRx 2 r3 s.rx
        res := { Result.cleared with wcfg := c, st := statusSlots [r0[0], r1[0], r2[0], r3[0]], nexch := 4#4,
                                     nframes := 4#4,
                                     fault := firstFault [some r0[0], some r1[0], some r2[0], some r3[0]] }
        asleepAccess := markAfterExchange s
        history := s.history ++ (bundleWriteFrames c).map .exchange
        offers := s.offers.tail, transport := rest })
    ∧ (∀ (rx : Bytes8) (rest : List BusReply), s.params.batched = true → s.transport = .ok rx :: rest →
      exec i s = .next { s with
        phase := .idle, k := 1#4, outstanding := none, req := { latchFrom (offered s) 0x5#4 0x00#5 with cfg := c }
        tx := loadTx (bundleWriteFrames c).flatten s.tx, rx := loadRx 8 rx s.rx
        res := { Result.cleared with wcfg := c, st := statusSlots [rx[0], rx[2], rx[4], rx[6]], nexch := 1#4,
                                     nframes := 4#4,
                                     fault := firstFault [some rx[0], some rx[2], some rx[4], some rx[6]] }
        asleepAccess := markAfterExchange s
        history := s.history ++ [.exchange (bundleWriteFrames c).flatten]
        offers := s.offers.tail, transport := rest })
    ∧ (∀ (rs : List Bytes8) (rest : List BusReply), s.params.batched = false → rs.length < 4 →
      s.transport = rs.map .ok ++ .err :: rest →
      ∃ t, exec i s = .next t ∧ t.phase = .idle
        ∧ t.res = { Result.cleared with err := .transport, dsu := true, wcfg := c, xidx := BitVec.ofNat 4 rs.length,
                                        nexch := BitVec.ofNat 4 rs.length, nframes := BitVec.ofNat 4 rs.length,
                                        st := statusSlots (rs.map fun r => r[0]),
                                        fault := firstFault (rs.map fun r => some r[0]) }
        ∧ t.history = s.history ++ ((bundleWriteFrames c).take (rs.length + 1)).map .exchange
        ∧ t.transport = rest ∧ t.sleep = s.sleep ∧ t.sleepLatch = s.sleepLatch)
    ∧ (∀ rest : List BusReply, s.params.batched = true → s.transport = .err :: rest →
      exec i s = .next { s with
        phase := .idle, k := 1#4, outstanding := none, req := { latchFrom (offered s) 0x5#4 0x00#5 with cfg := c }
        tx := loadTx (bundleWriteFrames c).flatten s.tx
        res := { Result.cleared with wcfg := c, err := .transport, dsu := true }
        asleepAccess := markAfterExchange s
        history := s.history ++ [.exchange (bundleWriteFrames c).flatten]
        offers := s.offers.tail, transport := rest })

/-- MODIFY_CONFIG (R276), discrete and batched, for every pure transformation: the read phase, the transformation, the write
phase; a transport error in the read phase writes nothing, one in the write phase keeps `cfg` and `wcfg`. The operand
fields a record holds beside those named, the buffer positions an exchange does not use, and the lists of answers and
offers are the model's choice: logs 10, 9, 3 and 12; that the bytes b[0..3] are state which a batched read phase leaves
as it was is the model's reading: log 8. -/
def Obligations.ModifyConfigReadsTransformsAndWritesBack : Prop :=
  ∀ (f : Transform 32) (s : State), s.phase = .idle →
    (∀ p, ∃ q, encode p (.modifyConfig f) = .req q ∧ q.header = 0x6000#16 ∧ reqCfgTransform q = f)
    ∧ RefusesAddress 0x6#4 s
    ∧ (∀ (r0 r1 r2 r3 w0 w1 w2 w3 : Bytes8) (rest : List BusReply) (c w : Cfg), s.params.batched = false →
      s.transport = .ok r0 :: .ok r1 :: .ok r2 :: .ok r3 :: .ok w0 :: .ok w1 :: .ok w2 :: .ok w3 :: rest →
      c = configPack r0[1] r1[1] r2[1] r3[1] → w = applyTransform f c →
      exec (.modifyConfig f) s = .next { s with
        phase := .idle, k := 8#4, outstanding := none
        req := latchCfgTransform f (latchFrom (offered s) 0x6#4 0x00#5)
        tx := loadTx [0x0A#8, cfgByte w 3] s.tx, rx := loadRx 2 w3 s.rx, bundle := #v[r0[1], r1[1], r2[1], r3[1]]
        res := { Result.cleared with cfg := c, wcfg := w,
                                     st := statusSlots [r0[0], r1[0], r2[0], r3[0], w0[0], w1[0], w2[0], w3[0]],
                                     nexch := 8#4, nframes := 8#4,
                                     fault := firstFault [some r0[0], some r1[0], some r2[0], some r3[0], some w0[0],
                                                          some w1[0], some w2[0], some w3[0]] }
        asleepAccess := markAfterExchange s
        history := s.history ++ (bundleReadFrames ++ bundleWriteFrames w).map .exchange
        offers := s.offers.tail, transport := rest })
    ∧ (∀ (rx wx : Bytes8) (rest : List BusReply) (c w : Cfg), s.params.batched = true →
      s.transport = .ok rx :: .ok wx :: rest →
      c = configPack rx[1] rx[3] rx[5] rx[7] → w = applyTransform f c →
      exec (.modifyConfig f) s = .next { s with
        phase := .idle, k := 2#4, outstanding := none
        req := latchCfgTransform f (latchFrom (offered s) 0x6#4 0x00#5)
        tx := loadTx (bundleWriteFrames w).flatten s.tx, rx := loadRx 8 wx s.rx
        res := { Result.cleared with cfg := c, wcfg := w,
                                     st := statusSlots [rx[0], rx[2], rx[4], rx[6], wx[0], wx[2], wx[4], wx[6]],
                                     nexch := 2#4, nframes := 8#4,
                                     fault := firstFault [some rx[0], some rx[2], some rx[4], some rx[6], some wx[0],
                                                          some wx[2], some wx[4], some wx[6]] }
        asleepAccess := markAfterExchange s
        history := s.history ++ [.exchange bundleReadFrames.flatten, .exchange (bundleWriteFrames w).flatten]
        offers := s.offers.tail, transport := rest })
    ∧ (∀ (rs : List Bytes8) (rest : List BusReply), s.params.batched = false → rs.length < 4 →
      s.transport = rs.map .ok ++ .err :: rest →
      ∃ t, exec (.modifyConfig f) s = .next t ∧ t.phase = .idle
        ∧ t.res = { Result.cleared with err := .transport, xidx := BitVec.ofNat 4 rs.length,
                                        nexch := BitVec.ofNat 4 rs.length, nframes := BitVec.ofNat 4 rs.length,
                                        st := statusSlots (rs.map fun r => r[0]),
                                        fault := firstFault (rs.map fun r => some r[0]) }
        ∧ t.history = s.history ++ (bundleReadFrames.take (rs.length + 1)).map .exchange
        ∧ t.transport = rest ∧ t.sleep = s.sleep ∧ t.sleepLatch = s.sleepLatch)
    ∧ (∀ (r0 r1 r2 r3 : Bytes8) (ws : List Bytes8) (rest : List BusReply) (c w : Cfg), s.params.batched = false →
      ws.length < 4 →
      s.transport = .ok r0 :: .ok r1 :: .ok r2 :: .ok r3 :: (ws.map .ok ++ .err :: rest) →
      c = configPack r0[1] r1[1] r2[1] r3[1] → w = applyTransform f c →
      ∃ t, exec (.modifyConfig f) s = .next t ∧ t.phase = .idle
        ∧ t.res = { Result.cleared with err := .transport, dsu := true, cfg := c, wcfg := w,
                                        xidx := BitVec.ofNat 4 (4 + ws.length),
                                        nexch := BitVec.ofNat 4 (4 + ws.length),
                                        nframes := BitVec.ofNat 4 (4 + ws.length),
                                        st := statusSlots ([r0[0], r1[0], r2[0], r3[0]] ++ ws.map fun r => r[0]),
                                        fault := firstFault ([some r0[0], some r1[0], some r2[0], some r3[0]]
                                          ++ ws.map fun r => some r[0]) }
        ∧ t.history = s.history
            ++ (bundleReadFrames ++ (bundleWriteFrames w).take (ws.length + 1)).map .exchange
        ∧ t.transport = rest ∧ t.sleep = s.sleep ∧ t.sleepLatch = s.sleepLatch)
    ∧ (∀ rest : List BusReply, s.params.batched = true → s.transport = .err :: rest →
      ∃ t, exec (.modifyConfig f) s = .next t ∧ t.phase = .idle
        ∧ t.res = { Result.cleared with err := .transport }
        ∧ t.history = s.history ++ [.exchange bundleReadFrames.flatten] ∧ t.transport = rest)
    ∧ (∀ (rx : Bytes8) (rest : List BusReply) (c w : Cfg), s.params.batched = true →
      s.transport = .ok rx :: .err :: rest → c = configPack rx[1] rx[3] rx[5] rx[7] → w = applyTransform f c →
      ∃ t, exec (.modifyConfig f) s = .next t ∧ t.phase = .idle
        ∧ t.res = { Result.cleared with err := .transport, dsu := true, cfg := c, wcfg := w, xidx := 1#4, nexch := 1#4,
                                        nframes := 4#4, st := statusSlots [rx[0], rx[2], rx[4], rx[6]],
                                        fault := firstFault [some rx[0], some rx[2], some rx[4], some rx[6]] }
        ∧ t.history = s.history ++ [.exchange bundleReadFrames.flatten, .exchange (bundleWriteFrames w).flatten]
        ∧ t.transport = rest)

/-- AWAKEN (R303 with R300, R301, R306, R309): nothing without a sleep pin or when AWAKE; otherwise the line is driven HIGH,
the delay runs, and S becomes AWAKE when it returns, not before; a pin error leaves S UNKNOWN and issues no delay. The
operand fields a record holds and the lists of answers and offers are the model's choice: logs 10, 3 and 12. -/
def Obligations.AwakenDrivesThePinAndWaits : Prop :=
  ∀ s : State, s.phase = .idle →
    (∀ p, encode p .awaken = .req { Request.zero with header := 0x8000#16 })
    ∧ RefusesAddress 0x8#4 s
    ∧ (s.params.hasSleepPin = false ∨ s.sleep = .awake →
      exec .awaken s = .next { s with
        phase := .idle, k := 0#4, outstanding := none, req := latchFrom (offered s) 0x8#4 0x00#5
        res := Result.cleared, offers := s.offers.tail })
    ∧ (∀ (ps : List PinReply) (ds : List DelayReply), s.params.hasSleepPin = true → s.sleep ≠ .awake →
      s.sleepPin = .ok :: ps → s.delay = .done :: ds →
      exec .awaken s = .next { s with
        phase := .idle, k := 2#4, outstanding := none, req := latchFrom (offered s) 0x8#4 0x00#5
        res := Result.cleared, sleep := .awake, sleepLatch := some .high
        history := s.history ++ [.pinSet .high, .delay s.params.tWakeUs]
        offers := s.offers.tail, sleepPin := ps, delay := ds })
    ∧ (∀ (ps : List PinReply) (ds : List DelayReply), s.params.hasSleepPin = true → s.sleep ≠ .awake →
      s.sleepPin = .ok :: ps → s.delay = .notYet :: ds →
      exec .awaken s = .next { s with
        phase := .busy, k := 2#4, outstanding := some (.delay s.params.tWakeUs)
        req := latchFrom (offered s) 0x8#4 0x00#5
        res := Result.cleared, sleepLatch := some .high
        history := s.history ++ [.pinSet .high, .delay s.params.tWakeUs]
        offers := s.offers.tail, sleepPin := ps, delay := ds })
    ∧ (∀ ps : List PinReply, s.params.hasSleepPin = true → s.sleep ≠ .awake → s.sleepPin = .err :: ps →
      exec .awaken s = .next { s with
        phase := .idle, k := 1#4, outstanding := none, req := latchFrom (offered s) 0x8#4 0x00#5
        res := { Result.cleared with err := .pin }, sleep := .unknown
        history := s.history ++ [.pinSet .high]
        offers := s.offers.tail, sleepPin := ps })

/-- SLEEP (R304 with R300, R301, R306, R309): nothing without a sleep pin or when ASLEEP; otherwise the line is driven LOW,
the delay runs, and S becomes ASLEEP when it returns, not before; a pin error leaves S UNKNOWN and issues no delay. The
operand fields a record holds and the lists of answers and offers are the model's choice: logs 10, 3 and 12. -/
def Obligations.SleepDrivesThePinAndWaits : Prop :=
  ∀ s : State, s.phase = .idle →
    (∀ p, encode p .sleep = .req { Request.zero with header := 0x9000#16 })
    ∧ RefusesAddress 0x9#4 s
    ∧ (s.params.hasSleepPin = false ∨ s.sleep = .asleep →
      exec .sleep s = .next { s with
        phase := .idle, k := 0#4, outstanding := none, req := latchFrom (offered s) 0x9#4 0x00#5
        res := Result.cleared, offers := s.offers.tail })
    ∧ (∀ (ps : List PinReply) (ds : List DelayReply), s.params.hasSleepPin = true → s.sleep ≠ .asleep →
      s.sleepPin = .ok :: ps → s.delay = .done :: ds →
      exec .sleep s = .next { s with
        phase := .idle, k := 2#4, outstanding := none, req := latchFrom (offered s) 0x9#4 0x00#5
        res := Result.cleared, sleep := .asleep, sleepLatch := some .low
        history := s.history ++ [.pinSet .low, .delay s.params.tSleepUs]
        offers := s.offers.tail, sleepPin := ps, delay := ds })
    ∧ (∀ (ps : List PinReply) (ds : List DelayReply), s.params.hasSleepPin = true → s.sleep ≠ .asleep →
      s.sleepPin = .ok :: ps → s.delay = .notYet :: ds →
      exec .sleep s = .next { s with
        phase := .busy, k := 2#4, outstanding := some (.delay s.params.tSleepUs)
        req := latchFrom (offered s) 0x9#4 0x00#5
        res := Result.cleared, sleepLatch := some .low
        history := s.history ++ [.pinSet .low, .delay s.params.tSleepUs]
        offers := s.offers.tail, sleepPin := ps, delay := ds })
    ∧ (∀ ps : List PinReply, s.params.hasSleepPin = true → s.sleep ≠ .asleep → s.sleepPin = .err :: ps →
      exec .sleep s = .next { s with
        phase := .idle, k := 1#4, outstanding := none, req := latchFrom (offered s) 0x9#4 0x00#5
        res := { Result.cleared with err := .pin }, sleep := .unknown
        history := s.history ++ [.pinSet .low]
        offers := s.offers.tail, sleepPin := ps })

/-- The seven reserved operation codes, whatever their other header bits: MISUSE RESERVED_OPC, no event, nothing else
changed (R116, R332). That the latch and k stay as they were is the model's reading: log 21. -/
def Obligations.ReservedOpcodesAreRefused : Prop :=
  ∀ (i : Instr) (s : State), ReservedOpc i → s.phase = .idle → exec i s = .next (misused .reservedOpc s)

/-- WIRE_READ and WIRE_WRITE: one exchange of one frame, its status recorded, nothing of a request's frame around it (R145,
R146, R150); on an error the running request ends with TRANSPORT. That the wire forms act by themselves is the model's
reading: log 17; that they do so on any address: log 30; the buffer positions beyond the frame: log 9; the answer taken
from a list: log 3; what happens to a ninth status byte: log 24; that an outstanding event of a BUSY block gives way:
log 32; that a failed one keeps the sub and dsu of the result record as it stands: log 33; that counters at 15 wrap: log
34; that it adds to the result record of an IDLE block: log 37; that an earlier wire form's outstanding event gives way:
log 38. -/
def Obligations.WireFormsAreOneExchange : Prop :=
  ∀ (a : Addr) (d : Byte) (i : Instr) (sent : List Byte) (s : State),
    (i = .wireRead a ∧ sent = [cmdRead a.toNat, 0x00#8]) ∨ (i = .wireWrite a d ∧ sent = [cmdWrite a.toNat, d]) →
    (∀ (rx : Bytes8) (rest : List BusReply), s.transport = .ok rx :: rest →
      exec i s = .next { s with
        k := s.k + 1#4, outstanding := none, tx := loadTx sent s.tx, rx := loadRx 2 rx s.rx
        res := { s.res with nexch := s.res.nexch + 1#4, nframes := s.res.nframes + 1#4,
                            st := s.res.st.setIfInBounds s.res.nframes.toNat (some rx[0]) }
        asleepAccess := markAfterExchange s
        history := s.history ++ [.exchange sent], transport := rest })
    ∧ (∀ rest : List BusReply, s.transport = .err :: rest →
      exec i s = .next { s with
        phase := .idle, k := s.k + 1#4, outstanding := none, tx := loadTx sent s.tx
        res := { s.res with err := .transport, xidx := s.res.nexch,
                            fault := aggregate s.res.st s.res.nframes,
                            dsu := s.res.dsu || decide (i = .wireWrite a d) }
        asleepAccess := markAfterExchange s
        history := s.history ++ [.exchange sent], transport := rest })

/-- A pseudo-instruction does what the request it stands for does (R119). That they have no words of their own is log 16. -/
def Obligations.PseudoInstructionsDoWhatTheyStandFor : Prop :=
  ∀ (i : Instr) (s : State), exec i s = exec (expand s.params i) s

/-! ### Steps -/

/-- In IDLE, a step runs the instruction the record on offer decodes to, and nothing around it (R220). That a step runs a
request as far as its answers reach is the model's choice: log 13. -/
def Obligations.StepRunsTheDecodedInstruction : Prop :=
  ∀ (s : State) (r : Request) (more : List Request) (i : Instr), s.phase = .idle → s.offers = r :: more →
    decodeRequest r = .ok i → step s = exec i s

/-- In IDLE, a record whose header VALIDATE refuses ends in MISUSE with that sub-code: no event, and nothing but the offer
and the result record changes (R220, R332, R333). That the latch and k stay as they were is the model's reading: log 21.
-/
def Obligations.InvalidHeadersAreRefusedBeforeAnyEvent : Prop :=
  ∀ (s : State) (r : Request) (more : List Request) (sub : MisuseSub), s.phase = .idle → s.offers = r :: more →
    validate r.header = some sub → step s = .next (misused sub s)

/-- A block that is BUSY takes no request: the offers wait, and an instruction offered changes nothing (R220, R386). The
list of offers is the model's choice: log 12. -/
def Obligations.RequestsWaitWhileBusy : Prop :=
  ∀ (s : State), s.phase = .busy →
    (∀ i, IsRequest i → exec i s = .next s) ∧ (∀ t, step s = .next t → t.offers = s.offers)

/-- A BUSY block has no step until its outstanding event is answered: a step without an answer changes nothing but the
answer list (R12, I13). That an answer may be missing and the block then waits is the model's reading: log 4. -/
def Obligations.AnUnansweredEventHoldsTheBlock : Prop :=
  ∀ s : State, SequencerInv s → s.phase = .busy →
    (∀ sent rest, s.outstanding = some (.exchange sent) → s.transport = .notYet :: rest →
      step s = .next { s with transport := rest })
    ∧ (∀ l rest, s.outstanding = some (.pinSet l) → s.sleepPin = .notYet :: rest →
      step s = .next { s with sleepPin := rest })
    ∧ (∀ us rest, s.outstanding = some (.delay us) → s.delay = .notYet :: rest →
      step s = .next { s with delay := rest })

/-- A late answer changes nothing: a request that waits at any of its exchanges, at its pin set or at its delay, and gets
the answer one step late, ends as it would have with the answer at once. That an answer may be missing and the block
then waits is the model's reading: log 4; that the answers stand in lists: log 3. -/
def Obligations.ALateAnswerChangesNothing : Prop :=
  ∀ (i : Instr) (s t : State), IsRequest i → s.phase = .idle → t.phase = .busy →
    (∀ (before rest : List BusReply) (sent : List Byte), .notYet ∉ before →
      exec i { s with transport := before ++ .notYet :: rest } = .next t → t.outstanding = some (.exchange sent) →
      step t = exec i { s with transport := before ++ rest })
    ∧ (∀ (rest : List PinReply) (l : PinLevel), exec i { s with sleepPin := .notYet :: rest } = .next t →
      t.outstanding = some (.pinSet l) → step t = exec i { s with sleepPin := rest })
    ∧ (∀ (rest : List DelayReply) (us : Nat), exec i { s with delay := .notYet :: rest } = .next t →
      t.outstanding = some (.delay us) → step t = exec i { s with delay := rest })

/-- The result stays until the next request is accepted: an IDLE block with nothing on offer does not change (R27, D26). The
list of offers is the model's choice: log 12. -/
def Obligations.AnIdleBlockKeepsItsResult : Prop :=
  ∀ s : State, s.phase = .idle → s.offers = [] → step s = .next s

/-! ### Reset and invariants -/

/-- The reset values the spec gives, for every instance (R52, R371, R372), its parameters as constructed (R370). That the
history is a field of State, empty at reset, is log 14; that the parameters are one, log 1. -/
def Obligations.ResetValues : Prop :=
  ∀ (p : Params) (h : paramsOk p = true),
    (State.resetOf p h).sleep = (if p.hasSleepPin then .asleep else .awake)
    ∧ (p.hasSleepPin = true → (State.resetOf p h).sleepLatch = some .low)
    ∧ (State.resetOf p h).phase = .idle
    ∧ (State.resetOf p h).k = 0#4
    ∧ (State.resetOf p h).res = ⟨.ok, none, 0#4, 0#4, 0#4, #v[none, none, none, none, none, none, none, none], none, 0#8,
        0#8, 0#32, 0#32, false⟩
    ∧ (State.resetOf p h).asleepAccess = false
    ∧ (State.resetOf p h).history = []
    ∧ (State.resetOf p h).params = p

/-- Every instance meets the four invariants at reset, and so does State.reset. State.reset is the instance of log 2. -/
def Obligations.ResetMeetsTheInvariants : Prop :=
  (∀ (p : Params) (h : paramsOk p = true), SequencerInv (State.resetOf p h) ∧ PowerInv (State.resetOf p h)
    ∧ HistoryInv (State.resetOf p h) ∧ ResultInv (State.resetOf p h))
  ∧ SequencerInv State.reset ∧ PowerInv State.reset ∧ HistoryInv State.reset ∧ ResultInv State.reset

/-- Every step keeps the sequencer's invariant: BUSY means a valid latched request with the event of its k-th stage
outstanding, IDLE means nothing outstanding (R12, R23). -/
def Obligations.StepKeepsTheSequencerInvariant : Prop :=
  ∀ s t : State, SequencerInv s → step s = .next t → SequencerInv t

/-- Every step keeps the power invariant: without a sleep pin S is AWAKE at all times (R21), and S and the level last driven
agree but during the wait (R300, R306, R309). -/
def Obligations.StepKeepsThePowerInvariant : Prop :=
  ∀ s t : State, SequencerInv s → PowerInv s → step s = .next t → PowerInv t

/-- Every step keeps the result record consistent: at most 8 frames, `st[j]` there exactly for the frames received, the
sub-code only with MISUSE, the index and the unknown flag only with TRANSPORT, and in IDLE the fault is the aggregate of
the status bytes recorded (R26, R149, R331, R332, R334, R336). -/
def Obligations.StepKeepsTheResultInvariant : Prop :=
  ∀ s t : State, SequencerInv s → ResultInv s → step s = .next t → ResultInv t

/-- From a state that meets the sequencer's invariant the machine never stops: a step answers a next state (R338). -/
def Obligations.NoStepStops : Prop := ∀ s : State, SequencerInv s → ∃ t, step s = .next t

/-! ### Rules about the whole machine -/

/-- The parameters are fixed for the life of an instance (R370), and no step writes the level on DISABLE or nFAULT (R29,
R310). -/
def Obligations.StepsKeepTheParametersAndTheUnusedPins : Prop :=
  ∀ s t : State, step s = .next t →
    t.params = s.params ∧ t.disableLine = s.disableLine ∧ t.faultLine = s.faultLine

/-- No request reads nFAULT or DISABLE: with other levels on them a step does the same (R310, R340). -/
def Obligations.TheUnusedPinsDoNotInterfere : Prop :=
  ∀ (s t : State) (x y : Option PinLevel), step s = .next t →
    step { s with disableLine := x, faultLine := y } = .next { t with disableLine := x, faultLine := y }

/-- No request but AWAKEN and SLEEP changes S or the level last driven, or issues anything but exchanges, in the step that
accepts it or in any later one (R232, R300, R308). -/
def Obligations.OnlyPowerRequestsTouchThePowerState : Prop :=
  (∀ (i : Instr) (s t : State), IsRequest i → ¬ IsPowerRequest i → exec i s = .next t →
    t.sleep = s.sleep ∧ t.sleepLatch = s.sleepLatch
      ∧ ∃ es, t.history = s.history ++ es ∧ ∀ e ∈ es, isExchange e = true)
  ∧ (∀ s t : State, SequencerInv s → s.phase = .busy → s.req.opc ≠ 0x8#4 → s.req.opc ≠ 0x9#4 → step s = .next t →
    t.sleep = s.sleep ∧ t.sleepLatch = s.sleepLatch
      ∧ ∃ es, t.history = s.history ++ es ∧ ∀ e ∈ es, isExchange e = true)

/-- The frame of a request, however it ends: the parameters and the unused pins stay, one offer is taken, a register request
leaves S, the level driven and the answers of pin and delay service alone, AWAKEN and SLEEP leave the exchange buffers,
the mark and the transport's answers alone, and only READ_CONFIG and MODIFY_CONFIG write the collected bytes (R20, R24,
R232, R262, R276, R308, R310). That an offer and an answer are taken from lists is the model's choice: logs 3 and 12;
that the collected bytes b[0..3] are state which lasts beyond a request is the model's reading: log 8. -/
def Obligations.RequestsLeaveTheRestAlone : Prop :=
  ∀ (i : Instr) (s t : State), IsRequest i → s.phase = .idle → exec i s = .next t →
    t.params = s.params ∧ t.disableLine = s.disableLine ∧ t.faultLine = s.faultLine ∧ t.offers = s.offers.tail
    ∧ (¬ IsPowerRequest i → t.sleep = s.sleep ∧ t.sleepLatch = s.sleepLatch ∧ t.sleepPin = s.sleepPin ∧ t.delay = s.delay)
    ∧ (IsPowerRequest i → t.tx = s.tx ∧ t.rx = s.rx ∧ t.asleepAccess = s.asleepAccess ∧ t.transport = s.transport)
    ∧ (¬ ReadsConfig i → t.bundle = s.bundle)

/-- A request writes only the result fields its rule names (R26): the value fields, the configuration fields and, without an
exchange, the exchange fields stay cleared. -/
def Obligations.RequestsWriteOnlyTheirResultFields : Prop :=
  ∀ (i : Instr) (s t : State), IsRequest i → s.phase = .idle → exec i s = .next t →
    (¬ ReadsValue i → t.res.value = 0#8) ∧ (¬ WritesValue i → t.res.wvalue = 0#8)
    ∧ (¬ ReadsConfig i → t.res.cfg = 0#32) ∧ (¬ WritesConfig i → t.res.wcfg = 0#32)
    ∧ (IsPowerRequest i → t.res = { Result.cleared with err := t.res.err })

/-- The mark: set when a request issues an exchange while there is a sleep pin and S is not AWAKE, in the step that accepts
it or in any later one, and never cleared by a step (R28, R307). -/
def Obligations.TheMarkIsSetExactlyByAccessWhileAsleep : Prop :=
  (∀ (i : Instr) (s t : State) (es : List Event), IsRequest i → s.phase = .idle → exec i s = .next t →
    t.history = s.history ++ es →
    t.asleepAccess = (s.asleepAccess || (es.any isExchange && s.params.hasSleepPin && decide (s.sleep ≠ .awake))))
  ∧ (∀ (s t : State) (es : List Event), SequencerInv s → s.phase = .busy → step s = .next t →
    t.history = s.history ++ es →
    t.asleepAccess = (s.asleepAccess || (es.any isExchange && s.params.hasSleepPin && decide (s.sleep ≠ .awake))))
  ∧ (∀ s t : State, step s = .next t → s.asleepAccess = true → t.asleepAccess = true)

/-- The block only ever adds legal events to the history: exchanges of 2 or 8 bytes whose frames read 0x00-0x05 or write
0x02-0x05 with the reserved command bits clear, pin sets and the two delays only with a sleep pin (R11, R101, R116,
R117, R121, R301). -/
def Obligations.StepsIssueLegalEventsOnly : Prop :=
  ∀ s t : State, SequencerInv s → step s = .next t →
    ∃ es, t.history = s.history ++ es ∧ ∀ e ∈ es, legalEvent s.params e = true

/-- `k` counts the events of the current request and never exceeds 8 (R23): a request accepted in IDLE starts it at 0, and
it goes up by one with each event of the history. -/
def Obligations.TheEventIndexCountsTheEvents : Prop :=
  (∀ (s t : State) (r : Request) (more : List Request), s.phase = .idle → s.offers = r :: more →
    validate r.header = none → step s = .next t →
    t.history.length = s.history.length + t.k.toNat ∧ t.k.toNat ≤ 8)
  ∧ (∀ s t : State, SequencerInv s → s.phase = .busy → step s = .next t →
    t.history.length + s.k.toNat = s.history.length + t.k.toNat ∧ t.k.toNat ≤ 8)

/-- `res.dsu` is true exactly when the request ends with TRANSPORT and the failing exchange, the last event issued, held a
write frame (R334): for a request that ends in the step that accepts it, and for one that a later step ends, where the
last event may have been issued before that step. -/
def Obligations.DeviceStateIsUnknownExactlyAfterAFailedWrite : Prop :=
  (∀ (i : Instr) (s t : State), IsRequest i → s.phase = .idle → exec i s = .next t → t.phase = .idle →
    (t.res.dsu = true ↔
      t.res.err = .transport ∧ ∃ sent, t.history.getLast? = some (.exchange sent) ∧ hasWriteFrame sent = true))
  ∧ (∀ (s t : State) (es : List Event), SequencerInv s → ResultInv s → s.phase = .busy → step s = .next t →
    t.phase = .idle → t.history = s.history ++ es →
    (t.res.dsu = true ↔
      t.res.err = .transport ∧ ∃ sent, lastIssued s.outstanding es = some (.exchange sent) ∧ hasWriteFrame sent = true))

/-- Errors are precise (R335, R338): a request that ends with TRANSPORT has the failing exchange as its last event and its
index in `xidx`; one that ends with PIN has the pin set as its last event and leaves S UNKNOWN; one that ends with OK
has had every exchange answered. The first half is about a request that ends in the step that accepts it, the second
about one that a later step ends. -/
def Obligations.ErrorsArePrecise : Prop :=
  (∀ (i : Instr) (s t : State) (es : List Event), IsRequest i → s.phase = .idle → exec i s = .next t →
    t.phase = .idle → t.history = s.history ++ es →
    (t.res.err = .transport → ∃ before sent, es = before ++ [.exchange sent]
        ∧ t.res.nexch.toNat = before.length ∧ t.res.xidx = t.res.nexch)
    ∧ (t.res.err = .pin → ∃ l, es = [.pinSet l] ∧ t.sleep = .unknown ∧ t.sleepLatch = s.sleepLatch)
    ∧ (t.res.err = .ok → t.res.nexch.toNat = es.countP isExchange)
    ∧ (t.res.err = .misuse → es = []))
  ∧ (∀ (s t : State) (es : List Event), SequencerInv s → ResultInv s → s.phase = .busy → step s = .next t →
    t.phase = .idle → t.history = s.history ++ es →
    (t.res.err = .transport → ∃ sent, lastIssued s.outstanding es = some (.exchange sent)
        ∧ t.res.nexch.toNat = s.res.nexch.toNat + es.length ∧ t.res.xidx = t.res.nexch)
    ∧ (t.res.err = .pin → ∃ l, s.outstanding = some (.pinSet l) ∧ es = [] ∧ t.sleep = .unknown
        ∧ t.sleepLatch = s.sleepLatch)
    ∧ (t.res.err = .ok → t.res.nexch.toNat = s.res.nexch.toNat + exchangesAnswered s.outstanding es)
    ∧ t.res.err ≠ .misuse)

/-- An IC-reported fault is data (R331): answers that differ in their status bytes alone make a request issue the same
events, end in the same way and return the same values. -/
def Obligations.ReportedFaultsAreData : Prop :=
  ∀ (i : Instr) (s t : State) (answers : List BusReply), IsRequest i → s.phase = .idle →
    SameButStatus s.transport answers → exec i s = .next t →
    ∃ u, exec i { s with transport := answers } = .next u
      ∧ forgetStatus u = forgetStatus t ∧ SameButStatus t.transport u.transport

/-- The discrete and the batched variant put the same bytes on the wire in the same order and return the same result but for
the count of exchanges (R261), each phase being four exchanges of 2 bytes or one of 8. -/
def Obligations.BatchedAndDiscreteBundlesAgree : Prop :=
  (∀ (i : Instr) (c : Cfg) (s : State) (r0 r1 r2 r3 : Bytes8) (rest more : List BusReply), s.phase = .idle →
    i = .readConfig ∨ SpellsWriteConfig s.params c i →
    s.params.batched = false → s.transport = .ok r0 :: .ok r1 :: .ok r2 :: .ok r3 :: rest →
    ∃ t u hd hb, exec i s = .next t
      ∧ exec i { s with params := { s.params with batched := true }, transport := .ok (batchOf r0 r1 r2 r3) :: more }
          = .next u
      ∧ t.history = s.history ++ hd ∧ u.history = s.history ++ hb ∧ wireBytes hd = wireBytes hb
      ∧ hd.map (fun e => (eventBytes e).length) = [2, 2, 2, 2] ∧ hb.map (fun e => (eventBytes e).length) = [8]
      ∧ t.res = { u.res with nexch := 4#4 } ∧ u.res.nexch = 1#4)
  ∧ (∀ (f : Transform 32) (s : State) (r0 r1 r2 r3 w0 w1 w2 w3 : Bytes8) (rest more : List BusReply), s.phase = .idle →
    s.params.batched = false →
    s.transport = .ok r0 :: .ok r1 :: .ok r2 :: .ok r3 :: .ok w0 :: .ok w1 :: .ok w2 :: .ok w3 :: rest →
    ∃ t u hd hb, exec (.modifyConfig f) s = .next t
      ∧ exec (.modifyConfig f) { s with params := { s.params with batched := true }
                                        transport := .ok (batchOf r0 r1 r2 r3) :: .ok (batchOf w0 w1 w2 w3) :: more }
          = .next u
      ∧ t.history = s.history ++ hd ∧ u.history = s.history ++ hb ∧ wireBytes hd = wireBytes hb
      ∧ hd.map (fun e => (eventBytes e).length) = [2, 2, 2, 2, 2, 2, 2, 2]
      ∧ hb.map (fun e => (eventBytes e).length) = [8, 8]
      ∧ t.res = { u.res with nexch := 8#4 } ∧ u.res.nexch = 2#4)

/-- The event counts of R391, for a well-formed request whose every event is answered without error: exchanges, pin sets,
delays, with the delay's length, and bytes on the wire; a MISUSE request issues no event. -/
def Obligations.EventCountsPerRequest : Prop :=
  (∀ (i : Instr) (s : State), IsRequest i → i.wf = true → s.phase = .idle →
    (∀ j < 8, ∃ rx, s.transport[j]? = some (.ok rx)) → s.sleepPin.head? = some .ok → s.delay.head? = some .done →
    ∃ t es, exec i s = .next t ∧ t.phase = .idle ∧ t.history = s.history ++ es ∧ countEvents es = eventCounts s i
      ∧ (wireBytes es).length = bytesOnWire i
      ∧ (∀ us, .delay us ∈ es → us = if i = .awaken then s.params.tWakeUs else s.params.tSleepUs))
  ∧ (∀ (i : Instr) (s t : State), IsRequest i → s.phase = .idle → exec i s = .next t → t.phase = .idle →
    t.res.err = .misuse → t.history = s.history)

/-! ### Parameters, and requests that a later step ends -/

/-- Every instance has default bytes of IC1 and IC4 with the meanings the source gives, under its own LAYOUT (R191), and its
clear-fault bit where the LAYOUT has CLR_FLT (R44). What else a LAYOUT may be is the model's reading: log 28. -/
def Obligations.DefaultsHaveTheNormativeMeanings : Prop :=
  ∀ p : Params, paramsOk p = true →
    (∃ f, findField p.layout .ic1 .mode = some f ∧ enumDecode f (getField p.defaultIc1 f) = some (.bridge .pwm))
    ∧ (∃ f, findField p.layout .ic1 .sr = some f ∧ enumDecode f (getField p.defaultIc1 f) = some (.riseTime 108))
    ∧ (∃ f, findField p.layout .ic1 .toff = some f ∧ enumDecode f (getField p.defaultIc1 f) = some (.offTime 40))
    ∧ (∃ f, findField p.layout .ic4 .itripLvl = some f ∧ enumDecode f (getField p.defaultIc4 f) = some (.tripLevel 65))
    ∧ (∃ f, findField p.layout .ic3 .clrFlt = some f ∧ ∀ v, getField (clearFaultMask p ||| v) f = 1#8)

/-- In the LAYOUT of an instance every row is of its kind: a flag is 1 bit wide and holds 0 or 1; an enumeration has a table
with one meaning for each code of its width, so whatever the register holds its code has a meaning; a field that R46 or
R47 makes an enumeration is one (R39). What else a LAYOUT may be is the model's reading: log 28. -/
def Obligations.RowsAreOfTheirKind : Prop :=
  ∀ (p : Params) (f : LayoutRow), paramsOk p = true → f ∈ p.layout →
    (f.kind = .flag → fieldWidth f = 1 ∧ ∀ v, getField v f = 0#8 ∨ getField v f = 1#8)
    ∧ (∀ table, f.kind = .enum table → table.length = 2 ^ fieldWidth f ∧ ∀ v, ∃ m, enumDecode f (getField v f) = some m)
    ∧ (isEnumerated f.field = true → ∃ table, f.kind = .enum table)

/-- AWAKEN and SLEEP in a later step (R303, R304, R306, R309): when the delay returns, the request ends OK and only then S
changes; when the pin is set, the level is latched and the delay issued; when the pin fails, the request ends with PIN,
S is UNKNOWN and no delay is issued. The lists of answers are the model's choice: log 3. -/
def Obligations.ABusyPowerRequestGoesOn : Prop :=
  ∀ (s : State) (l : PinLevel) (us : Nat) (x : SleepState), SequencerInv s → s.phase = .busy →
    (s.req.opc = 0x8#4 ∧ l = .high ∧ us = s.params.tWakeUs ∧ x = .awake)
      ∨ (s.req.opc = 0x9#4 ∧ l = .low ∧ us = s.params.tSleepUs ∧ x = .asleep) →
    (∀ ds : List DelayReply, s.outstanding = some (.delay us) → s.delay = .done :: ds →
      step s = .next { s with
        phase := .idle, outstanding := none, sleep := x, delay := ds
        res := { s.res with err := .ok, fault := aggregate s.res.st s.res.nframes } })
    ∧ (∀ (ps : List PinReply) (ds : List DelayReply), s.outstanding = some (.pinSet l) → s.sleepPin = .ok :: ps →
      s.delay = .done :: ds →
      step s = .next { s with
        phase := .idle, k := 2#4, outstanding := none, sleep := x, sleepLatch := some l
        history := s.history ++ [.delay us], sleepPin := ps, delay := ds
        res := { s.res with err := .ok, fault := aggregate s.res.st s.res.nframes } })
    ∧ (∀ (ps : List PinReply) (ds : List DelayReply), s.outstanding = some (.pinSet l) → s.sleepPin = .ok :: ps →
      s.delay = .notYet :: ds →
      step s = .next { s with
        k := 2#4, outstanding := some (.delay us), sleepLatch := some l
        history := s.history ++ [.delay us], sleepPin := ps, delay := ds })
    ∧ (∀ ps : List PinReply, s.outstanding = some (.pinSet l) → s.sleepPin = .err :: ps →
      step s = .next { s with
        phase := .idle, outstanding := none, sleep := .unknown, sleepPin := ps
        res := { s.res with err := .pin, fault := aggregate s.res.st s.res.nframes } })

/-- Every step keeps the history's invariant: while the block is BUSY, the event it waits for is the last one issued (R338,
R12). That the history stands in State is log 14. -/
def Obligations.StepKeepsTheHistoryInvariant : Prop :=
  ∀ s t : State, SequencerInv s → HistoryInv s → step s = .next t → HistoryInv t
end

