-- ==== Sys2Proof/Laws/Buffers.lean ====
section
/-!
SUPPORT. The exchange buffers, the status slots of the result record, and the aggregated fault: what each of their
functions comes to.
-/

namespace Sys2Proof.Machine

/-! ### `tx` and `rx` (R24) -/

theorem byteAt_of_lt (v : Bytes8) {i : Nat} (h : i < 8) : byteAt v i = v[i] := by
  simp [byteAt, h]

theorem loadRx_get (n : Nat) (a b : Bytes8) {i : Nat} (h : i < 8) :
    (loadRx n a b)[i] = if i < n then a[i] else b[i] := by
  simp [loadRx]

theorem loadTx_get (sent : List Byte) (b : Bytes8) {i : Nat} (h : i < 8) :
    (loadTx sent b)[i] = sent[i]?.getD b[i] := by
  simp [loadTx]

/-- A later exchange of the same size covers the earlier one. -/
@[simp] theorem loadRx_loadRx (n : Nat) (a b c : Bytes8) : loadRx n a (loadRx n b c) = loadRx n a c := by
  ext i h
  simp only [loadRx_get]
  split <;> rfl

/-- A later exchange that is no shorter covers the earlier one. -/
theorem loadTx_loadTx (l m : List Byte) (b : Bytes8) (h : m.length ≤ l.length) :
    loadTx l (loadTx m b) = loadTx l b := by
  ext i hi
  simp only [loadTx_get]
  by_cases hl : i < l.length
  · simp [hl]
  · simp [List.getElem?_eq_none (Nat.le_of_not_lt hl),
      List.getElem?_eq_none (Nat.le_trans h (Nat.le_of_not_lt hl))]

/-- The byte of a position a successful exchange of n bytes has received. -/
theorem byteAt_loadRx (n : Nat) (a b : Bytes8) {i : Nat} (h : i < n) (h8 : i < 8) :
    byteAt (loadRx n a b) i = a[i] := by
  rw [byteAt_of_lt _ h8, loadRx_get _ _ _ h8, if_pos h]

/-- One frame has one status byte (R104). -/
@[simp] theorem statusBytes_two (r : Bytes8) : statusBytes 2 r = [r[0]] := rfl

/-- The four frames of a batched exchange have four, at the even positions (R75, R105). -/
@[simp] theorem statusBytes_eight (r : Bytes8) : statusBytes 8 r = [r[0], r[2], r[4], r[6]] := rfl

/-! ### Status slots (R26, R150) -/

theorem statusSlots_get (bs : List Byte) {i : Nat} (h : i < 8) : (statusSlots bs)[i] = bs[i]? := by
  simp [statusSlots]

/-- The cleared record has no status byte. -/
theorem cleared_st : Result.cleared.st = statusSlots [] := rfl

/-- Recording goes on from the slots that are filled. -/
theorem setSlot_statusSlots (bs : List Byte) (c : Byte) :
    (statusSlots bs).setIfInBounds bs.length (some c) = statusSlots (bs ++ [c]) := by
  ext1 i hi
  rw [statusSlots_get _ hi, Vector.getElem_setIfInBounds, statusSlots_get _ hi]
  split
  · next h => subst h; simp
  · next h =>
    rcases Nat.lt_or_ge i bs.length with hl | hl
    · rw [List.getElem?_append_left hl]
    · rw [List.getElem?_eq_none hl, List.getElem?_eq_none]
      simp only [List.length_append, List.length_singleton]
      omega

/-- What recording the status bytes cs does to a record that holds bs (R150). -/
theorem recordStatuses_slots (cs bs : List Byte) (r : Result) (hst : r.st = statusSlots bs)
    (hn : r.nframes = BitVec.ofNat 4 bs.length) (hlen : bs.length + cs.length ≤ 8) :
    recordStatuses cs r
      = { r with st := statusSlots (bs ++ cs), nframes := BitVec.ofNat 4 (bs.length + cs.length) } := by
  induction cs generalizing bs r with
  | nil => cases r; simp_all [recordStatuses]
  | cons c cs ih =>
    have hb : (BitVec.ofNat 4 bs.length).toNat = bs.length := by
      simp only [List.length_cons] at hlen
      simp only [BitVec.toNat_ofNat]
      omega
    rw [recordStatuses, ih (bs ++ [c])]
    · have hc : bs.length + 1 + cs.length = bs.length + (cs.length + 1) := by omega
      simp [hc]
    · rw [hst, hn, hb, setSlot_statusSlots]
    · rw [hn, List.length_append, List.length_singleton, BitVec.ofNat_add]
    · simp only [List.length_append, List.length_cons, List.length_nil] at hlen ⊢
      omega

/-! Recording writes the slots and their count alone. -/

@[simp] theorem recordStatuses_err (cs : List Byte) (r : Result) : (recordStatuses cs r).err = r.err := by
  induction cs generalizing r with
  | nil => rfl
  | cons c cs ih => simp [recordStatuses, ih]
@[simp] theorem recordStatuses_sub (cs : List Byte) (r : Result) : (recordStatuses cs r).sub = r.sub := by
  induction cs generalizing r with
  | nil => rfl
  | cons c cs ih => simp [recordStatuses, ih]
@[simp] theorem recordStatuses_xidx (cs : List Byte) (r : Result) : (recordStatuses cs r).xidx = r.xidx := by
  induction cs generalizing r with
  | nil => rfl
  | cons c cs ih => simp [recordStatuses, ih]
@[simp] theorem recordStatuses_nexch (cs : List Byte) (r : Result) : (recordStatuses cs r).nexch = r.nexch := by
  induction cs generalizing r with
  | nil => rfl
  | cons c cs ih => simp [recordStatuses, ih]
@[simp] theorem recordStatuses_fault (cs : List Byte) (r : Result) : (recordStatuses cs r).fault = r.fault := by
  induction cs generalizing r with
  | nil => rfl
  | cons c cs ih => simp [recordStatuses, ih]
@[simp] theorem recordStatuses_value (cs : List Byte) (r : Result) : (recordStatuses cs r).value = r.value := by
  induction cs generalizing r with
  | nil => rfl
  | cons c cs ih => simp [recordStatuses, ih]
@[simp] theorem recordStatuses_wvalue (cs : List Byte) (r : Result) :
    (recordStatuses cs r).wvalue = r.wvalue := by
  induction cs generalizing r with
  | nil => rfl
  | cons c cs ih => simp [recordStatuses, ih]
@[simp] theorem recordStatuses_cfg (cs : List Byte) (r : Result) : (recordStatuses cs r).cfg = r.cfg := by
  induction cs generalizing r with
  | nil => rfl
  | cons c cs ih => simp [recordStatuses, ih]
@[simp] theorem recordStatuses_wcfg (cs : List Byte) (r : Result) : (recordStatuses cs r).wcfg = r.wcfg := by
  induction cs generalizing r with
  | nil => rfl
  | cons c cs ih => simp [recordStatuses, ih]
@[simp] theorem recordStatuses_dsu (cs : List Byte) (r : Result) : (recordStatuses cs r).dsu = r.dsu := by
  induction cs generalizing r with
  | nil => rfl
  | cons c cs ih => simp [recordStatuses, ih]

/-- One frame's status (R150). -/
theorem recordStatuses_one (b : Byte) (r : Result) :
    recordStatuses [b] r
      = { r with st := r.st.setIfInBounds r.nframes.toNat (some b), nframes := r.nframes + 1#4 } := rfl

/-! ### The aggregated fault (R149) -/

/-- AGG over the recorded status bytes is the first fault among them. -/
theorem aggregate_statusSlots (bs : List Byte) (h : bs.length ≤ 8) :
    aggregate (statusSlots bs) (BitVec.ofNat 4 bs.length) = firstFault (bs.map some) := by
  have hb : (BitVec.ofNat 4 bs.length).toNat = bs.length := by
    simp only [BitVec.toNat_ofNat]
    omega
  unfold aggregate
  rw [hb]
  congr 1
  apply List.ext_getElem
  · simp [h]
  · intro i h1 h2
    have hi : i < bs.length := by simpa using h2
    have : (statusSlots bs)[i]'(by omega) = bs[i]? := statusSlots_get bs (by omega)
    simp [this, hi]

@[simp] theorem firstFault_nil : firstFault [] = none := rfl

theorem firstFault_ok_cons (rest : List (Option Byte)) :
    firstFault (some Config.statusOk :: rest) = firstFault rest := rfl

/-- A single frame's fault is its status byte decoded. -/
@[simp] theorem firstFault_single (b : Byte) : firstFault [some b] = decodeStatus b := by
  simp only [firstFault]
  cases decodeStatus b <;> rfl

end Sys2Proof.Machine
end

