-- ==== Sys2Proof/Laws/Encoding.lean ====
section
/-!
SUPPORT. Header fields, VALIDATE on the headers of the instructions, and command bytes.
-/

namespace Sys2Proof

/-! ### Headers with an address (R110, R120) -/

theorem headerOpc_readReg : ∀ a : Addr, headerOpc (headerWith 0x1000#16 a) = 0x1#4 := by decide
theorem headerOpc_writeReg : ∀ a : Addr, headerOpc (headerWith 0x2000#16 a) = 0x2#4 := by decide
theorem headerOpc_modifyReg : ∀ a : Addr, headerOpc (headerWith 0x3000#16 a) = 0x3#4 := by decide
theorem headerAddr_readReg : ∀ a : Addr, headerAddr (headerWith 0x1000#16 a) = a := by decide
theorem headerAddr_writeReg : ∀ a : Addr, headerAddr (headerWith 0x2000#16 a) = a := by decide
theorem headerAddr_modifyReg : ∀ a : Addr, headerAddr (headerWith 0x3000#16 a) = a := by decide

/-! ### VALIDATE (R333) -/

theorem validate_readReg : ∀ a : Addr, a.toNat ≤ 5 → validate (headerWith 0x1000#16 a) = none := by decide
theorem validate_writeReg :
    ∀ a : Addr, 2 ≤ a.toNat → a.toNat ≤ 5 → validate (headerWith 0x2000#16 a) = none := by decide
theorem validate_modifyReg :
    ∀ a : Addr, 2 ≤ a.toNat → a.toNat ≤ 5 → validate (headerWith 0x3000#16 a) = none := by decide
theorem validate_readConfig : validate 0x4000#16 = none := by decide
theorem validate_writeConfig : validate 0x5000#16 = none := by decide
theorem validate_modifyConfig : validate 0x6000#16 = none := by decide
theorem validate_clearFault : validate 0x7000#16 = none := by decide
theorem validate_awaken : validate 0x8000#16 = none := by decide
theorem validate_sleep : validate 0x9000#16 = none := by decide

/-- A latched request's header is the header it was accepted with, RSV being 0. -/
theorem headerOpc_concat (o : BitVec 4) (a : Addr) : headerOpc (o ++ 0#7 ++ a) = o := by
  revert o a
  decide
theorem headerAddr_concat (o : BitVec 4) (a : Addr) : headerAddr (o ++ 0#7 ++ a) = a := by
  revert o a
  decide
theorem headerRsv_concat (o : BitVec 4) (a : Addr) : headerRsv (o ++ 0#7 ++ a) = 0#7 := by
  revert o a
  decide

/-! ### Command bytes (R140, R141) -/

/-- Only addr[4:0] is used. -/
theorem cmdWrite_mask (addr : Nat) : cmdWrite addr = cmdWrite (addr % 32) := by
  unfold cmdWrite
  have h : ∀ n : Nat, n &&& 0x1F = n % 32 := fun n => Nat.and_two_pow_sub_one_eq_mod n 5
  rw [h, h, Nat.mod_mod]

theorem cmdRead_mask (addr : Nat) : cmdRead addr = cmdRead (addr % 32) := by
  unfold cmdRead
  have h : ∀ n : Nat, n &&& 0x1F = n % 32 := fun n => Nat.and_two_pow_sub_one_eq_mod n 5
  rw [h, h, Nat.mod_mod]

end Sys2Proof
end

