-- ==== Sys2Proof/Laws/Fields.lean ====
section
/-!
SUPPORT. Lemmas about fields and enumeration tables: what `codeOf` answers, what `layoutOk` says of a row, and how wide a
field's code is.
-/

namespace Sys2Proof.Machine

/-- The code of a meaning has that meaning. -/
theorem codeOf_some {m : Meaning} {table : List Meaning} {i : Nat} (h : codeOf m table = some i) : table[i]? = some m := by
  induction table generalizing i with
  | nil => cases h
  | cons x rest ih =>
    simp only [codeOf] at h
    split at h
    · cases h; simp [*]
    · simp only [Option.map_eq_some_iff] at h
      obtain ⟨j, hj, rfl⟩ := h
      simpa using ih hj

/-- A meaning that the table does not have has no code. -/
theorem codeOf_none {m : Meaning} {table : List Meaning} (h : m ∉ table) : codeOf m table = none := by
  induction table with
  | nil => rfl
  | cons x rest ih =>
    simp only [List.mem_cons, not_or] at h
    simp [codeOf, ih h.2, Ne.symm h.1]

/-- A meaning that the table has has a code, inside the table. -/
theorem codeOf_mem {m : Meaning} {table : List Meaning} (h : m ∈ table) :
    ∃ i, codeOf m table = some i ∧ i < table.length := by
  induction table with
  | nil => cases h
  | cons x rest ih =>
    by_cases hx : x = m
    · exact ⟨0, by simp [codeOf, hx], by simp⟩
    · obtain ⟨i, hi, hl⟩ := ih ((List.mem_cons.1 h).resolve_left (Ne.symm hx))
      exact ⟨i + 1, by simp [codeOf, hx, hi], by simpa using hl⟩

/-- Where no two entries are alike, the code of entry i is i. -/
theorem codeOf_getElem {table : List Meaning} (hn : table.Nodup) {i : Nat} (hi : i < table.length) :
    codeOf table[i] table = some i := by
  obtain ⟨j, hj, hl⟩ := codeOf_mem (List.getElem_mem hi)
  have hm := codeOf_some hj
  rw [List.getElem?_eq_getElem hl, Option.some.injEq] at hm
  rw [hj, (hn.getElem_inj_iff).1 hm]

/-- A row of a LAYOUT a block may have is of its kind, and lies inside the byte. -/
theorem layoutOk_row {l : Layout} (hl : layoutOk l = true) {f : LayoutRow} (hf : f ∈ l) :
    rowOk f = true ∧ f.lo ≤ f.hi ∧ f.hi ≤ 7 := by
  simp only [layoutOk, Bool.and_eq_true, List.all_eq_true, layoutCovered] at hl
  obtain ⟨⟨⟨⟨⟨⟨⟨h1, h2⟩, h3⟩, h4⟩, h5⟩, h6⟩, ho⟩, -⟩ := hl
  refine ⟨ho f hf, ?_⟩
  have key : ∀ r, registerCovered l r = true → f.reg = r → f.lo ≤ f.hi ∧ f.hi ≤ 7 := by
    intro r hr hfr
    simp only [registerCovered, Bool.and_eq_true, List.all_eq_true] at hr
    simpa using hr.1 f (by simp [registerRows, hf, hfr])
  cases h : f.reg
  · exact key _ h1 h
  · exact key _ h2 h
  · exact key _ h3 h
  · exact key _ h4 h
  · exact key _ h5 h
  · exact key _ h6 h

/-- The mask of a field is below 2 to its width. -/
theorem fieldMask_lt {f : LayoutRow} (hw : fieldWidth f ≤ 8) : (fieldMask f).toNat < 2 ^ fieldWidth f := by
  have masks : ∀ w : Fin 9, ((1#8 <<< w.val) - 1#8).toNat < 2 ^ w.val := by decide
  exact masks ⟨fieldWidth f, by omega⟩

/-- GET gives a code of the field's width. -/
theorem getField_lt {f : LayoutRow} (hw : fieldWidth f ≤ 8) (v : Byte) : (getField v f).toNat < 2 ^ fieldWidth f := by
  simp only [getField, BitVec.toNat_and]
  exact Nat.lt_of_le_of_lt Nat.and_le_right (fieldMask_lt hw)

end Sys2Proof.Machine
end

