-- ==== Sys2Proof/Laws/PerInstr.lean ====
section
/-!
SUPPORT. Statements about every instruction as syntax, one lemma per constructor. The family `EncodesItsTableRow`: the
words the encoder gives an instruction meet the mask and the match of its row of spec/opcode_table.json, whose numbers
stand here as the table has them.
-/

namespace Sys2Proof.Laws

/-- The mask and the match of an instruction's row of spec/opcode_table.json. -/
def tableRow : Instr → BitVec 16 × BitVec 16
  | .readReg _ => (0xFFE0#16, 0x1000#16)
  | .writeReg _ _ => (0xFFE0#16, 0x2000#16)
  | .modifyReg _ _ => (0xFFE0#16, 0x3000#16)
  | .readConfig => (0xFFFF#16, 0x4000#16)
  | .writeConfig _ => (0xFFFF#16, 0x5000#16)
  | .modifyConfig _ => (0xFFFF#16, 0x6000#16)
  | .clearFault => (0xFFFF#16, 0x7000#16)
  | .awaken => (0xFFFF#16, 0x8000#16)
  | .sleep => (0xFFFF#16, 0x9000#16)
  | .reservedOpc0 _ => (0xF000#16, 0x0000#16)
  | .reservedOpcA _ => (0xF000#16, 0xA000#16)
  | .reservedOpcB _ => (0xF000#16, 0xB000#16)
  | .reservedOpcC _ => (0xF000#16, 0xC000#16)
  | .reservedOpcD _ => (0xF000#16, 0xD000#16)
  | .reservedOpcE _ => (0xF000#16, 0xE000#16)
  | .reservedOpcF _ => (0xF000#16, 0xF000#16)
  | .readFault => (0xFFFF#16, 0x1000#16)
  | .readDiag => (0xFFFF#16, 0x1001#16)
  | .readIc1 => (0xFFFF#16, 0x1002#16)
  | .readIc2 => (0xFFFF#16, 0x1003#16)
  | .readIc3 => (0xFFFF#16, 0x1004#16)
  | .readIc4 => (0xFFFF#16, 0x1005#16)
  | .writeIc1 _ => (0xFFFF#16, 0x2002#16)
  | .writeIc2 _ => (0xFFFF#16, 0x2003#16)
  | .writeIc3 _ => (0xFFFF#16, 0x2004#16)
  | .writeIc4 _ => (0xFFFF#16, 0x2005#16)
  | .modifyIc1 _ _ => (0xFFFF#16, 0x3002#16)
  | .modifyIc2 _ _ => (0xFFFF#16, 0x3003#16)
  | .modifyIc3 _ _ => (0xFFFF#16, 0x3004#16)
  | .modifyIc4 _ _ => (0xFFFF#16, 0x3005#16)
  | .setBits _ _ => (0xFFE0#16, 0x3000#16)
  | .clrBits _ _ => (0xFFE0#16, 0x3000#16)
  | .writeDefaults => (0xFFFF#16, 0x5000#16)
  | .wireRead _ => (0xC1FF#16, 0x4000#16)
  | .wireWrite _ _ => (0xC100#16, 0x0000#16)

/-- The 16 bits of a code that its table row fixes: a request's header, or a frame. -/
def codeBits : Code → BitVec 16
  | .req r => r.header
  | .frame f => f

namespace EncodesItsTableRow

/-- The encoding of i meets the mask and match of its table row, on every instance. -/
def Statement (i : Instr) : Prop :=
  ∀ p : Params, codeBits (encode p i) &&& (tableRow i).1 = (tableRow i).2

theorem headerMask_readReg : ∀ a : Addr, headerWith 0x1000#16 a &&& 0xFFE0#16 = 0x1000#16 := by decide
theorem headerMask_writeReg : ∀ a : Addr, headerWith 0x2000#16 a &&& 0xFFE0#16 = 0x2000#16 := by decide
theorem headerMask_modifyReg : ∀ a : Addr, headerWith 0x3000#16 a &&& 0xFFE0#16 = 0x3000#16 := by decide
theorem headerMask_reserved (o : BitVec 4) (rest : BitVec 12) : (o ++ rest) &&& 0xF000#16 = o ++ 0#12 := by
  have h : (o ++ rest) &&& (0xF#4 ++ 0x000#12) = (o &&& 0xF#4) ++ (rest &&& 0x000#12) := BitVec.and_append
  have ho : ∀ o : BitVec 4, o &&& 0xF#4 = o := by decide
  rw [ho o, BitVec.and_zero] at h
  exact h
theorem frameMask_read : ∀ a : Addr, frameBits (frameRead a.toNat) &&& 0xC1FF#16 = 0x4000#16 := by decide
theorem frameMask_write (a : Addr) (d : Byte) :
    frameBits (frameWrite a.toNat d) &&& 0xC100#16 = 0x0000#16 := by
  have hc : ∀ a : Addr, cmdWrite a.toNat &&& 0xC1#8 = 0x00#8 := by decide
  have h : (cmdWrite a.toNat ++ d) &&& (0xC1#8 ++ 0x00#8) = (cmdWrite a.toNat &&& 0xC1#8) ++ (d &&& 0x00#8) :=
    BitVec.and_append
  rw [hc a, BitVec.and_zero] at h
  exact h

theorem readReg (a : Addr) : Statement (.readReg a) := fun _ => headerMask_readReg a
theorem writeReg (a : Addr) (d : Byte) : Statement (.writeReg a d) := fun _ => headerMask_writeReg a
theorem modifyReg (a : Addr) (f : Transform 8) : Statement (.modifyReg a f) := by
  intro p
  cases f <;> exact headerMask_modifyReg a
theorem readConfig : Statement .readConfig := by
  intro p
  simp only [encode, codeBare, codeBits, tableRow]
  decide
theorem writeConfig (c : Cfg) : Statement (.writeConfig c) := by
  intro p
  simp only [encode, codeBits, tableRow]
  decide
theorem modifyConfig (f : Transform 32) : Statement (.modifyConfig f) := by
  intro p
  cases f <;> simp only [encode, codeModifyConfig, codeBits, tableRow] <;> decide
theorem clearFault : Statement .clearFault := by
  intro p
  simp only [encode, codeBare, codeBits, tableRow]
  decide
theorem awaken : Statement .awaken := by
  intro p
  simp only [encode, codeBare, codeBits, tableRow]
  decide
theorem sleep : Statement .sleep := by
  intro p
  simp only [encode, codeBare, codeBits, tableRow]
  decide
theorem reservedOpc0 (rest : BitVec 12) : Statement (.reservedOpc0 rest) := fun _ => headerMask_reserved _ rest
theorem reservedOpcA (rest : BitVec 12) : Statement (.reservedOpcA rest) := fun _ => headerMask_reserved _ rest
theorem reservedOpcB (rest : BitVec 12) : Statement (.reservedOpcB rest) := fun _ => headerMask_reserved _ rest
theorem reservedOpcC (rest : BitVec 12) : Statement (.reservedOpcC rest) := fun _ => headerMask_reserved _ rest
theorem reservedOpcD (rest : BitVec 12) : Statement (.reservedOpcD rest) := fun _ => headerMask_reserved _ rest
theorem reservedOpcE (rest : BitVec 12) : Statement (.reservedOpcE rest) := fun _ => headerMask_reserved _ rest
theorem reservedOpcF (rest : BitVec 12) : Statement (.reservedOpcF rest) := fun _ => headerMask_reserved _ rest
theorem readFault : Statement .readFault := by
  intro p
  simp only [encode, codeBare, codeBits, tableRow]
  decide
theorem readDiag : Statement .readDiag := by
  intro p
  simp only [encode, codeBare, codeBits, tableRow]
  decide
theorem readIc1 : Statement .readIc1 := by
  intro p
  simp only [encode, codeBare, codeBits, tableRow]
  decide
theorem readIc2 : Statement .readIc2 := by
  intro p
  simp only [encode, codeBare, codeBits, tableRow]
  decide
theorem readIc3 : Statement .readIc3 := by
  intro p
  simp only [encode, codeBare, codeBits, tableRow]
  decide
theorem readIc4 : Statement .readIc4 := by
  intro p
  simp only [encode, codeBare, codeBits, tableRow]
  decide
theorem writeIc1 (d : Byte) : Statement (.writeIc1 d) := by
  intro p
  simp only [encode, codeBits, tableRow]
  decide
theorem writeIc2 (d : Byte) : Statement (.writeIc2 d) := by
  intro p
  simp only [encode, codeBits, tableRow]
  decide
theorem writeIc3 (d : Byte) : Statement (.writeIc3 d) := by
  intro p
  simp only [encode, codeBits, tableRow]
  decide
theorem writeIc4 (d : Byte) : Statement (.writeIc4 d) := by
  intro p
  simp only [encode, codeBits, tableRow]
  decide
theorem modifyIc1 (m : Byte) (d : Byte) : Statement (.modifyIc1 m d) := by
  intro p
  simp only [encode, codeBits, tableRow]
  decide
theorem modifyIc2 (m : Byte) (d : Byte) : Statement (.modifyIc2 m d) := by
  intro p
  simp only [encode, codeBits, tableRow]
  decide
theorem modifyIc3 (m : Byte) (d : Byte) : Statement (.modifyIc3 m d) := by
  intro p
  simp only [encode, codeBits, tableRow]
  decide
theorem modifyIc4 (m : Byte) (d : Byte) : Statement (.modifyIc4 m d) := by
  intro p
  simp only [encode, codeBits, tableRow]
  decide
theorem setBits (a : Addr) (m : Byte) : Statement (.setBits a m) := fun _ => headerMask_modifyReg a
theorem clrBits (a : Addr) (m : Byte) : Statement (.clrBits a m) := fun _ => headerMask_modifyReg a
theorem writeDefaults : Statement .writeDefaults := by
  intro p
  simp only [encode, codeBits, tableRow]
  decide
theorem wireRead (a : Addr) : Statement (.wireRead a) := fun _ => frameMask_read a
theorem wireWrite (a : Addr) (d : Byte) : Statement (.wireWrite a d) := fun _ => frameMask_write a d

end EncodesItsTableRow

end Sys2Proof.Laws
end

