-- ==== Sys2Proof/Laws/State.lean ====
section
/-!
SUPPORT. One lemma per field per state operation: what the operation leaves in the field. Proofs cite these and unfold no
record update.
-/

namespace Sys2Proof.Machine

/-! ### `takeOffer` -/

@[simp] theorem takeOffer_params (s : State) : (takeOffer s).params = s.params := rfl
@[simp] theorem takeOffer_sleep (s : State) : (takeOffer s).sleep = s.sleep := rfl
@[simp] theorem takeOffer_phase (s : State) : (takeOffer s).phase = s.phase := rfl
@[simp] theorem takeOffer_k (s : State) : (takeOffer s).k = s.k := rfl
@[simp] theorem takeOffer_outstanding (s : State) : (takeOffer s).outstanding = s.outstanding := rfl
@[simp] theorem takeOffer_req (s : State) : (takeOffer s).req = s.req := rfl
@[simp] theorem takeOffer_tx (s : State) : (takeOffer s).tx = s.tx := rfl
@[simp] theorem takeOffer_rx (s : State) : (takeOffer s).rx = s.rx := rfl
@[simp] theorem takeOffer_bundle (s : State) : (takeOffer s).bundle = s.bundle := rfl
@[simp] theorem takeOffer_res (s : State) : (takeOffer s).res = Result.cleared := rfl
@[simp] theorem takeOffer_asleepAccess (s : State) : (takeOffer s).asleepAccess = s.asleepAccess := rfl
@[simp] theorem takeOffer_sleepLatch (s : State) : (takeOffer s).sleepLatch = s.sleepLatch := rfl
@[simp] theorem takeOffer_disableLine (s : State) : (takeOffer s).disableLine = s.disableLine := rfl
@[simp] theorem takeOffer_faultLine (s : State) : (takeOffer s).faultLine = s.faultLine := rfl
@[simp] theorem takeOffer_history (s : State) : (takeOffer s).history = s.history := rfl
@[simp] theorem takeOffer_offers (s : State) : (takeOffer s).offers = s.offers.tail := rfl
@[simp] theorem takeOffer_transport (s : State) : (takeOffer s).transport = s.transport := rfl
@[simp] theorem takeOffer_sleepPin (s : State) : (takeOffer s).sleepPin = s.sleepPin := rfl
@[simp] theorem takeOffer_delay (s : State) : (takeOffer s).delay = s.delay := rfl
@[simp] theorem takeOffer_drawn (s : State) : (takeOffer s).drawn = s.drawn := rfl

/-! ### `refuse` -/

@[simp] theorem refuse_params (sub : MisuseSub) (s : State) : (refuse sub s).params = s.params := rfl
@[simp] theorem refuse_sleep (sub : MisuseSub) (s : State) : (refuse sub s).sleep = s.sleep := rfl
@[simp] theorem refuse_phase (sub : MisuseSub) (s : State) : (refuse sub s).phase = s.phase := rfl
@[simp] theorem refuse_k (sub : MisuseSub) (s : State) : (refuse sub s).k = s.k := rfl
@[simp] theorem refuse_outstanding (sub : MisuseSub) (s : State) : (refuse sub s).outstanding = s.outstanding := rfl
@[simp] theorem refuse_req (sub : MisuseSub) (s : State) : (refuse sub s).req = s.req := rfl
@[simp] theorem refuse_tx (sub : MisuseSub) (s : State) : (refuse sub s).tx = s.tx := rfl
@[simp] theorem refuse_rx (sub : MisuseSub) (s : State) : (refuse sub s).rx = s.rx := rfl
@[simp] theorem refuse_bundle (sub : MisuseSub) (s : State) : (refuse sub s).bundle = s.bundle := rfl
@[simp] theorem refuse_res (sub : MisuseSub) (s : State) :
    (refuse sub s).res = { Result.cleared with err := .misuse, sub := some sub } := rfl
@[simp] theorem refuse_asleepAccess (sub : MisuseSub) (s : State) :
    (refuse sub s).asleepAccess = s.asleepAccess := rfl
@[simp] theorem refuse_sleepLatch (sub : MisuseSub) (s : State) : (refuse sub s).sleepLatch = s.sleepLatch := rfl
@[simp] theorem refuse_disableLine (sub : MisuseSub) (s : State) : (refuse sub s).disableLine = s.disableLine := rfl
@[simp] theorem refuse_faultLine (sub : MisuseSub) (s : State) : (refuse sub s).faultLine = s.faultLine := rfl
@[simp] theorem refuse_history (sub : MisuseSub) (s : State) : (refuse sub s).history = s.history := rfl
@[simp] theorem refuse_offers (sub : MisuseSub) (s : State) : (refuse sub s).offers = s.offers.tail := rfl
@[simp] theorem refuse_transport (sub : MisuseSub) (s : State) : (refuse sub s).transport = s.transport := rfl
@[simp] theorem refuse_sleepPin (sub : MisuseSub) (s : State) : (refuse sub s).sleepPin = s.sleepPin := rfl
@[simp] theorem refuse_delay (sub : MisuseSub) (s : State) : (refuse sub s).delay = s.delay := rfl
@[simp] theorem refuse_drawn (sub : MisuseSub) (s : State) : (refuse sub s).drawn = s.drawn := rfl

/-! ### `latch` -/

@[simp] theorem latch_params (r : Request) (s : State) : (latch r s).params = s.params := rfl
@[simp] theorem latch_sleep (r : Request) (s : State) : (latch r s).sleep = s.sleep := rfl
@[simp] theorem latch_phase (r : Request) (s : State) : (latch r s).phase = .busy := rfl
@[simp] theorem latch_k (r : Request) (s : State) : (latch r s).k = 0#4 := rfl
@[simp] theorem latch_outstanding (r : Request) (s : State) : (latch r s).outstanding = none := rfl
@[simp] theorem latch_req (r : Request) (s : State) : (latch r s).req = latchOf r := rfl
@[simp] theorem latch_tx (r : Request) (s : State) : (latch r s).tx = s.tx := rfl
@[simp] theorem latch_rx (r : Request) (s : State) : (latch r s).rx = s.rx := rfl
@[simp] theorem latch_bundle (r : Request) (s : State) : (latch r s).bundle = s.bundle := rfl
@[simp] theorem latch_res (r : Request) (s : State) : (latch r s).res = Result.cleared := rfl
@[simp] theorem latch_asleepAccess (r : Request) (s : State) : (latch r s).asleepAccess = s.asleepAccess := rfl
@[simp] theorem latch_sleepLatch (r : Request) (s : State) : (latch r s).sleepLatch = s.sleepLatch := rfl
@[simp] theorem latch_disableLine (r : Request) (s : State) : (latch r s).disableLine = s.disableLine := rfl
@[simp] theorem latch_faultLine (r : Request) (s : State) : (latch r s).faultLine = s.faultLine := rfl
@[simp] theorem latch_history (r : Request) (s : State) : (latch r s).history = s.history := rfl
@[simp] theorem latch_offers (r : Request) (s : State) : (latch r s).offers = s.offers.tail := rfl
@[simp] theorem latch_transport (r : Request) (s : State) : (latch r s).transport = s.transport := rfl
@[simp] theorem latch_sleepPin (r : Request) (s : State) : (latch r s).sleepPin = s.sleepPin := rfl
@[simp] theorem latch_delay (r : Request) (s : State) : (latch r s).delay = s.delay := rfl
@[simp] theorem latch_drawn (r : Request) (s : State) : (latch r s).drawn = s.drawn := rfl

/-! ### `issue` -/

@[simp] theorem issue_params (e : Event) (s : State) : (issue e s).params = s.params := by cases e <;> rfl
@[simp] theorem issue_sleep (e : Event) (s : State) : (issue e s).sleep = s.sleep := by cases e <;> rfl
@[simp] theorem issue_phase (e : Event) (s : State) : (issue e s).phase = s.phase := by cases e <;> rfl
@[simp] theorem issue_k (e : Event) (s : State) : (issue e s).k = s.k + 1#4 := by cases e <;> rfl
@[simp] theorem issue_outstanding (e : Event) (s : State) : (issue e s).outstanding = some e := by cases e <;> rfl
@[simp] theorem issue_req (e : Event) (s : State) : (issue e s).req = s.req := by cases e <;> rfl
@[simp] theorem issue_rx (e : Event) (s : State) : (issue e s).rx = s.rx := by cases e <;> rfl
@[simp] theorem issue_bundle (e : Event) (s : State) : (issue e s).bundle = s.bundle := by cases e <;> rfl
@[simp] theorem issue_res (e : Event) (s : State) : (issue e s).res = s.res := by cases e <;> rfl
@[simp] theorem issue_sleepLatch (e : Event) (s : State) : (issue e s).sleepLatch = s.sleepLatch := by cases e <;> rfl
@[simp] theorem issue_disableLine (e : Event) (s : State) :
    (issue e s).disableLine = s.disableLine := by cases e <;> rfl
@[simp] theorem issue_faultLine (e : Event) (s : State) : (issue e s).faultLine = s.faultLine := by cases e <;> rfl
@[simp] theorem issue_history (e : Event) (s : State) : (issue e s).history = s.history ++ [e] := by cases e <;> rfl
@[simp] theorem issue_offers (e : Event) (s : State) : (issue e s).offers = s.offers := by cases e <;> rfl
@[simp] theorem issue_transport (e : Event) (s : State) : (issue e s).transport = s.transport := by cases e <;> rfl
@[simp] theorem issue_sleepPin (e : Event) (s : State) : (issue e s).sleepPin = s.sleepPin := by cases e <;> rfl
@[simp] theorem issue_delay (e : Event) (s : State) : (issue e s).delay = s.delay := by cases e <;> rfl
@[simp] theorem issue_drawn (e : Event) (s : State) : (issue e s).drawn = s.drawn := by cases e <;> rfl

/-! ### `takeBusReply` -/

@[simp] theorem takeBusReply_params (s : State) :
    (takeBusReply s).params = s.params := by unfold takeBusReply; split <;> simp_all
@[simp] theorem takeBusReply_sleep (s : State) :
    (takeBusReply s).sleep = s.sleep := by unfold takeBusReply; split <;> simp_all
@[simp] theorem takeBusReply_phase (s : State) :
    (takeBusReply s).phase = s.phase := by unfold takeBusReply; split <;> simp_all
@[simp] theorem takeBusReply_k (s : State) : (takeBusReply s).k = s.k := by unfold takeBusReply; split <;> simp_all
@[simp] theorem takeBusReply_outstanding (s : State) :
    (takeBusReply s).outstanding = s.outstanding := by unfold takeBusReply; split <;> simp_all
@[simp] theorem takeBusReply_req (s : State) :
    (takeBusReply s).req = s.req := by unfold takeBusReply; split <;> simp_all
@[simp] theorem takeBusReply_tx (s : State) : (takeBusReply s).tx = s.tx := by unfold takeBusReply; split <;> simp_all
@[simp] theorem takeBusReply_rx (s : State) : (takeBusReply s).rx = s.rx := by unfold takeBusReply; split <;> simp_all
@[simp] theorem takeBusReply_bundle (s : State) :
    (takeBusReply s).bundle = s.bundle := by unfold takeBusReply; split <;> simp_all
@[simp] theorem takeBusReply_res (s : State) :
    (takeBusReply s).res = s.res := by unfold takeBusReply; split <;> simp_all
@[simp] theorem takeBusReply_asleepAccess (s : State) :
    (takeBusReply s).asleepAccess = s.asleepAccess := by unfold takeBusReply; split <;> simp_all
@[simp] theorem takeBusReply_sleepLatch (s : State) :
    (takeBusReply s).sleepLatch = s.sleepLatch := by unfold takeBusReply; split <;> simp_all
@[simp] theorem takeBusReply_disableLine (s : State) :
    (takeBusReply s).disableLine = s.disableLine := by unfold takeBusReply; split <;> simp_all
@[simp] theorem takeBusReply_faultLine (s : State) :
    (takeBusReply s).faultLine = s.faultLine := by unfold takeBusReply; split <;> simp_all
@[simp] theorem takeBusReply_history (s : State) :
    (takeBusReply s).history = s.history := by unfold takeBusReply; split <;> simp_all
@[simp] theorem takeBusReply_offers (s : State) :
    (takeBusReply s).offers = s.offers := by unfold takeBusReply; split <;> simp_all
@[simp] theorem takeBusReply_transport (s : State) :
    (takeBusReply s).transport = s.transport.tail := by unfold takeBusReply; split <;> simp_all
@[simp] theorem takeBusReply_sleepPin (s : State) :
    (takeBusReply s).sleepPin = s.sleepPin := by unfold takeBusReply; split <;> simp_all
@[simp] theorem takeBusReply_delay (s : State) :
    (takeBusReply s).delay = s.delay := by unfold takeBusReply; split <;> simp_all

/-! ### `takePinReply` -/

@[simp] theorem takePinReply_params (s : State) :
    (takePinReply s).params = s.params := by unfold takePinReply; split <;> simp_all
@[simp] theorem takePinReply_sleep (s : State) :
    (takePinReply s).sleep = s.sleep := by unfold takePinReply; split <;> simp_all
@[simp] theorem takePinReply_phase (s : State) :
    (takePinReply s).phase = s.phase := by unfold takePinReply; split <;> simp_all
@[simp] theorem takePinReply_k (s : State) : (takePinReply s).k = s.k := by unfold takePinReply; split <;> simp_all
@[simp] theorem takePinReply_outstanding (s : State) :
    (takePinReply s).outstanding = s.outstanding := by unfold takePinReply; split <;> simp_all
@[simp] theorem takePinReply_req (s : State) :
    (takePinReply s).req = s.req := by unfold takePinReply; split <;> simp_all
@[simp] theorem takePinReply_tx (s : State) : (takePinReply s).tx = s.tx := by unfold takePinReply; split <;> simp_all
@[simp] theorem takePinReply_rx (s : State) : (takePinReply s).rx = s.rx := by unfold takePinReply; split <;> simp_all
@[simp] theorem takePinReply_bundle (s : State) :
    (takePinReply s).bundle = s.bundle := by unfold takePinReply; split <;> simp_all
@[simp] theorem takePinReply_res (s : State) :
    (takePinReply s).res = s.res := by unfold takePinReply; split <;> simp_all
@[simp] theorem takePinReply_asleepAccess (s : State) :
    (takePinReply s).asleepAccess = s.asleepAccess := by unfold takePinReply; split <;> simp_all
@[simp] theorem takePinReply_sleepLatch (s : State) :
    (takePinReply s).sleepLatch = s.sleepLatch := by unfold takePinReply; split <;> simp_all
@[simp] theorem takePinReply_disableLine (s : State) :
    (takePinReply s).disableLine = s.disableLine := by unfold takePinReply; split <;> simp_all
@[simp] theorem takePinReply_faultLine (s : State) :
    (takePinReply s).faultLine = s.faultLine := by unfold takePinReply; split <;> simp_all
@[simp] theorem takePinReply_history (s : State) :
    (takePinReply s).history = s.history := by unfold takePinReply; split <;> simp_all
@[simp] theorem takePinReply_offers (s : State) :
    (takePinReply s).offers = s.offers := by unfold takePinReply; split <;> simp_all
@[simp] theorem takePinReply_transport (s : State) :
    (takePinReply s).transport = s.transport := by unfold takePinReply; split <;> simp_all
@[simp] theorem takePinReply_sleepPin (s : State) :
    (takePinReply s).sleepPin = s.sleepPin.tail := by unfold takePinReply; split <;> simp_all
@[simp] theorem takePinReply_delay (s : State) :
    (takePinReply s).delay = s.delay := by unfold takePinReply; split <;> simp_all

/-! ### `takeDelayReply` -/

@[simp] theorem takeDelayReply_params (s : State) :
    (takeDelayReply s).params = s.params := by unfold takeDelayReply; split <;> simp_all
@[simp] theorem takeDelayReply_sleep (s : State) :
    (takeDelayReply s).sleep = s.sleep := by unfold takeDelayReply; split <;> simp_all
@[simp] theorem takeDelayReply_phase (s : State) :
    (takeDelayReply s).phase = s.phase := by unfold takeDelayReply; split <;> simp_all
@[simp] theorem takeDelayReply_k (s : State) :
    (takeDelayReply s).k = s.k := by unfold takeDelayReply; split <;> simp_all
@[simp] theorem takeDelayReply_outstanding (s : State) :
    (takeDelayReply s).outstanding = s.outstanding := by unfold takeDelayReply; split <;> simp_all
@[simp] theorem takeDelayReply_req (s : State) :
    (takeDelayReply s).req = s.req := by unfold takeDelayReply; split <;> simp_all
@[simp] theorem takeDelayReply_tx (s : State) :
    (takeDelayReply s).tx = s.tx := by unfold takeDelayReply; split <;> simp_all
@[simp] theorem takeDelayReply_rx (s : State) :
    (takeDelayReply s).rx = s.rx := by unfold takeDelayReply; split <;> simp_all
@[simp] theorem takeDelayReply_bundle (s : State) :
    (takeDelayReply s).bundle = s.bundle := by unfold takeDelayReply; split <;> simp_all
@[simp] theorem takeDelayReply_res (s : State) :
    (takeDelayReply s).res = s.res := by unfold takeDelayReply; split <;> simp_all
@[simp] theorem takeDelayReply_asleepAccess (s : State) :
    (takeDelayReply s).asleepAccess = s.asleepAccess := by unfold takeDelayReply; split <;> simp_all
@[simp] theorem takeDelayReply_sleepLatch (s : State) :
    (takeDelayReply s).sleepLatch = s.sleepLatch := by unfold takeDelayReply; split <;> simp_all
@[simp] theorem takeDelayReply_disableLine (s : State) :
    (takeDelayReply s).disableLine = s.disableLine := by unfold takeDelayReply; split <;> simp_all
@[simp] theorem takeDelayReply_faultLine (s : State) :
    (takeDelayReply s).faultLine = s.faultLine := by unfold takeDelayReply; split <;> simp_all
@[simp] theorem takeDelayReply_history (s : State) :
    (takeDelayReply s).history = s.history := by unfold takeDelayReply; split <;> simp_all
@[simp] theorem takeDelayReply_offers (s : State) :
    (takeDelayReply s).offers = s.offers := by unfold takeDelayReply; split <;> simp_all
@[simp] theorem takeDelayReply_transport (s : State) :
    (takeDelayReply s).transport = s.transport := by unfold takeDelayReply; split <;> simp_all
@[simp] theorem takeDelayReply_sleepPin (s : State) :
    (takeDelayReply s).sleepPin = s.sleepPin := by unfold takeDelayReply; split <;> simp_all
@[simp] theorem takeDelayReply_delay (s : State) :
    (takeDelayReply s).delay = s.delay.tail := by unfold takeDelayReply; split <;> simp_all

/-! ### `recordExchange` -/

@[simp] theorem recordExchange_params (n : Nat) (received : Bytes8) (s : State) :
    (recordExchange n received s).params = s.params := rfl
@[simp] theorem recordExchange_sleep (n : Nat) (received : Bytes8) (s : State) :
    (recordExchange n received s).sleep = s.sleep := rfl
@[simp] theorem recordExchange_phase (n : Nat) (received : Bytes8) (s : State) :
    (recordExchange n received s).phase = s.phase := rfl
@[simp] theorem recordExchange_k (n : Nat) (received : Bytes8) (s : State) :
    (recordExchange n received s).k = s.k := rfl
@[simp] theorem recordExchange_outstanding (n : Nat) (received : Bytes8) (s : State) :
    (recordExchange n received s).outstanding = none := rfl
@[simp] theorem recordExchange_req (n : Nat) (received : Bytes8) (s : State) :
    (recordExchange n received s).req = s.req := rfl
@[simp] theorem recordExchange_tx (n : Nat) (received : Bytes8) (s : State) :
    (recordExchange n received s).tx = s.tx := rfl
@[simp] theorem recordExchange_rx (n : Nat) (received : Bytes8) (s : State) :
    (recordExchange n received s).rx = loadRx n received s.rx := rfl
@[simp] theorem recordExchange_bundle (n : Nat) (received : Bytes8) (s : State) :
    (recordExchange n received s).bundle = s.bundle := rfl
@[simp] theorem recordExchange_res (n : Nat) (received : Bytes8) (s : State) :
    (recordExchange n received s).res = recordStatuses (statusBytes n received) { s.res with nexch := s.res.nexch + 1#4 } := rfl
@[simp] theorem recordExchange_asleepAccess (n : Nat) (received : Bytes8) (s : State) :
    (recordExchange n received s).asleepAccess = s.asleepAccess := rfl
@[simp] theorem recordExchange_sleepLatch (n : Nat) (received : Bytes8) (s : State) :
    (recordExchange n received s).sleepLatch = s.sleepLatch := rfl
@[simp] theorem recordExchange_disableLine (n : Nat) (received : Bytes8) (s : State) :
    (recordExchange n received s).disableLine = s.disableLine := rfl
@[simp] theorem recordExchange_faultLine (n : Nat) (received : Bytes8) (s : State) :
    (recordExchange n received s).faultLine = s.faultLine := rfl
@[simp] theorem recordExchange_history (n : Nat) (received : Bytes8) (s : State) :
    (recordExchange n received s).history = s.history := rfl
@[simp] theorem recordExchange_offers (n : Nat) (received : Bytes8) (s : State) :
    (recordExchange n received s).offers = s.offers := rfl
@[simp] theorem recordExchange_transport (n : Nat) (received : Bytes8) (s : State) :
    (recordExchange n received s).transport = s.transport := rfl
@[simp] theorem recordExchange_sleepPin (n : Nat) (received : Bytes8) (s : State) :
    (recordExchange n received s).sleepPin = s.sleepPin := rfl
@[simp] theorem recordExchange_delay (n : Nat) (received : Bytes8) (s : State) :
    (recordExchange n received s).delay = s.delay := rfl
@[simp] theorem recordExchange_drawn (n : Nat) (received : Bytes8) (s : State) :
    (recordExchange n received s).drawn = s.drawn := rfl

/-! ### `recordFailedExchange` -/

@[simp] theorem recordFailedExchange_params (s : State) : (recordFailedExchange s).params = s.params := rfl
@[simp] theorem recordFailedExchange_sleep (s : State) : (recordFailedExchange s).sleep = s.sleep := rfl
@[simp] theorem recordFailedExchange_phase (s : State) : (recordFailedExchange s).phase = s.phase := rfl
@[simp] theorem recordFailedExchange_k (s : State) : (recordFailedExchange s).k = s.k := rfl
@[simp] theorem recordFailedExchange_outstanding (s : State) : (recordFailedExchange s).outstanding = none := rfl
@[simp] theorem recordFailedExchange_req (s : State) : (recordFailedExchange s).req = s.req := rfl
@[simp] theorem recordFailedExchange_tx (s : State) : (recordFailedExchange s).tx = s.tx := rfl
@[simp] theorem recordFailedExchange_rx (s : State) : (recordFailedExchange s).rx = s.rx := rfl
@[simp] theorem recordFailedExchange_bundle (s : State) : (recordFailedExchange s).bundle = s.bundle := rfl
@[simp] theorem recordFailedExchange_res (s : State) :
    (recordFailedExchange s).res = { s.res with xidx := s.res.nexch } := rfl
@[simp] theorem recordFailedExchange_asleepAccess (s : State) :
    (recordFailedExchange s).asleepAccess = s.asleepAccess := rfl
@[simp] theorem recordFailedExchange_sleepLatch (s : State) :
    (recordFailedExchange s).sleepLatch = s.sleepLatch := rfl
@[simp] theorem recordFailedExchange_disableLine (s : State) :
    (recordFailedExchange s).disableLine = s.disableLine := rfl
@[simp] theorem recordFailedExchange_faultLine (s : State) : (recordFailedExchange s).faultLine = s.faultLine := rfl
@[simp] theorem recordFailedExchange_history (s : State) : (recordFailedExchange s).history = s.history := rfl
@[simp] theorem recordFailedExchange_offers (s : State) : (recordFailedExchange s).offers = s.offers := rfl
@[simp] theorem recordFailedExchange_transport (s : State) : (recordFailedExchange s).transport = s.transport := rfl
@[simp] theorem recordFailedExchange_sleepPin (s : State) : (recordFailedExchange s).sleepPin = s.sleepPin := rfl
@[simp] theorem recordFailedExchange_delay (s : State) : (recordFailedExchange s).delay = s.delay := rfl
@[simp] theorem recordFailedExchange_drawn (s : State) : (recordFailedExchange s).drawn = s.drawn := rfl

/-! ### `clearOutstanding` -/

@[simp] theorem clearOutstanding_params (s : State) : (clearOutstanding s).params = s.params := rfl
@[simp] theorem clearOutstanding_sleep (s : State) : (clearOutstanding s).sleep = s.sleep := rfl
@[simp] theorem clearOutstanding_phase (s : State) : (clearOutstanding s).phase = s.phase := rfl
@[simp] theorem clearOutstanding_k (s : State) : (clearOutstanding s).k = s.k := rfl
@[simp] theorem clearOutstanding_outstanding (s : State) : (clearOutstanding s).outstanding = none := rfl
@[simp] theorem clearOutstanding_req (s : State) : (clearOutstanding s).req = s.req := rfl
@[simp] theorem clearOutstanding_tx (s : State) : (clearOutstanding s).tx = s.tx := rfl
@[simp] theorem clearOutstanding_rx (s : State) : (clearOutstanding s).rx = s.rx := rfl
@[simp] theorem clearOutstanding_bundle (s : State) : (clearOutstanding s).bundle = s.bundle := rfl
@[simp] theorem clearOutstanding_res (s : State) : (clearOutstanding s).res = s.res := rfl
@[simp] theorem clearOutstanding_asleepAccess (s : State) : (clearOutstanding s).asleepAccess = s.asleepAccess := rfl
@[simp] theorem clearOutstanding_sleepLatch (s : State) : (clearOutstanding s).sleepLatch = s.sleepLatch := rfl
@[simp] theorem clearOutstanding_disableLine (s : State) : (clearOutstanding s).disableLine = s.disableLine := rfl
@[simp] theorem clearOutstanding_faultLine (s : State) : (clearOutstanding s).faultLine = s.faultLine := rfl
@[simp] theorem clearOutstanding_history (s : State) : (clearOutstanding s).history = s.history := rfl
@[simp] theorem clearOutstanding_offers (s : State) : (clearOutstanding s).offers = s.offers := rfl
@[simp] theorem clearOutstanding_transport (s : State) : (clearOutstanding s).transport = s.transport := rfl
@[simp] theorem clearOutstanding_sleepPin (s : State) : (clearOutstanding s).sleepPin = s.sleepPin := rfl
@[simp] theorem clearOutstanding_delay (s : State) : (clearOutstanding s).delay = s.delay := rfl
@[simp] theorem clearOutstanding_drawn (s : State) : (clearOutstanding s).drawn = s.drawn := rfl

/-! ### `recordFailedPin` -/

@[simp] theorem recordFailedPin_params (s : State) : (recordFailedPin s).params = s.params := rfl
@[simp] theorem recordFailedPin_sleep (s : State) : (recordFailedPin s).sleep = .unknown := rfl
@[simp] theorem recordFailedPin_phase (s : State) : (recordFailedPin s).phase = s.phase := rfl
@[simp] theorem recordFailedPin_k (s : State) : (recordFailedPin s).k = s.k := rfl
@[simp] theorem recordFailedPin_outstanding (s : State) : (recordFailedPin s).outstanding = none := rfl
@[simp] theorem recordFailedPin_req (s : State) : (recordFailedPin s).req = s.req := rfl
@[simp] theorem recordFailedPin_tx (s : State) : (recordFailedPin s).tx = s.tx := rfl
@[simp] theorem recordFailedPin_rx (s : State) : (recordFailedPin s).rx = s.rx := rfl
@[simp] theorem recordFailedPin_bundle (s : State) : (recordFailedPin s).bundle = s.bundle := rfl
@[simp] theorem recordFailedPin_res (s : State) : (recordFailedPin s).res = s.res := rfl
@[simp] theorem recordFailedPin_asleepAccess (s : State) : (recordFailedPin s).asleepAccess = s.asleepAccess := rfl
@[simp] theorem recordFailedPin_sleepLatch (s : State) : (recordFailedPin s).sleepLatch = s.sleepLatch := rfl
@[simp] theorem recordFailedPin_disableLine (s : State) : (recordFailedPin s).disableLine = s.disableLine := rfl
@[simp] theorem recordFailedPin_faultLine (s : State) : (recordFailedPin s).faultLine = s.faultLine := rfl
@[simp] theorem recordFailedPin_history (s : State) : (recordFailedPin s).history = s.history := rfl
@[simp] theorem recordFailedPin_offers (s : State) : (recordFailedPin s).offers = s.offers := rfl
@[simp] theorem recordFailedPin_transport (s : State) : (recordFailedPin s).transport = s.transport := rfl
@[simp] theorem recordFailedPin_sleepPin (s : State) : (recordFailedPin s).sleepPin = s.sleepPin := rfl
@[simp] theorem recordFailedPin_delay (s : State) : (recordFailedPin s).delay = s.delay := rfl
@[simp] theorem recordFailedPin_drawn (s : State) : (recordFailedPin s).drawn = s.drawn := rfl

/-! ### `complete` -/

@[simp] theorem complete_params (e : Err) (w : Bool) (s : State) : (complete e w s).params = s.params := rfl
@[simp] theorem complete_sleep (e : Err) (w : Bool) (s : State) : (complete e w s).sleep = s.sleep := rfl
@[simp] theorem complete_phase (e : Err) (w : Bool) (s : State) : (complete e w s).phase = .idle := rfl
@[simp] theorem complete_k (e : Err) (w : Bool) (s : State) : (complete e w s).k = s.k := rfl
@[simp] theorem complete_outstanding (e : Err) (w : Bool) (s : State) :
    (complete e w s).outstanding = s.outstanding := rfl
@[simp] theorem complete_req (e : Err) (w : Bool) (s : State) : (complete e w s).req = s.req := rfl
@[simp] theorem complete_tx (e : Err) (w : Bool) (s : State) : (complete e w s).tx = s.tx := rfl
@[simp] theorem complete_rx (e : Err) (w : Bool) (s : State) : (complete e w s).rx = s.rx := rfl
@[simp] theorem complete_bundle (e : Err) (w : Bool) (s : State) : (complete e w s).bundle = s.bundle := rfl
@[simp] theorem complete_res (e : Err) (w : Bool) (s : State) :
    (complete e w s).res = { s.res with err := e, fault := aggregate s.res.st s.res.nframes, dsu := s.res.dsu || (decide (e = .transport) && w) } := rfl
@[simp] theorem complete_asleepAccess (e : Err) (w : Bool) (s : State) :
    (complete e w s).asleepAccess = s.asleepAccess := rfl
@[simp] theorem complete_sleepLatch (e : Err) (w : Bool) (s : State) :
    (complete e w s).sleepLatch = s.sleepLatch := rfl
@[simp] theorem complete_disableLine (e : Err) (w : Bool) (s : State) :
    (complete e w s).disableLine = s.disableLine := rfl
@[simp] theorem complete_faultLine (e : Err) (w : Bool) (s : State) : (complete e w s).faultLine = s.faultLine := rfl
@[simp] theorem complete_history (e : Err) (w : Bool) (s : State) : (complete e w s).history = s.history := rfl
@[simp] theorem complete_offers (e : Err) (w : Bool) (s : State) : (complete e w s).offers = s.offers := rfl
@[simp] theorem complete_transport (e : Err) (w : Bool) (s : State) : (complete e w s).transport = s.transport := rfl
@[simp] theorem complete_sleepPin (e : Err) (w : Bool) (s : State) : (complete e w s).sleepPin = s.sleepPin := rfl
@[simp] theorem complete_delay (e : Err) (w : Bool) (s : State) : (complete e w s).delay = s.delay := rfl
@[simp] theorem complete_drawn (e : Err) (w : Bool) (s : State) : (complete e w s).drawn = s.drawn := rfl

/-! ### `setValue` -/

@[simp] theorem setValue_params (v : Byte) (s : State) : (setValue v s).params = s.params := rfl
@[simp] theorem setValue_sleep (v : Byte) (s : State) : (setValue v s).sleep = s.sleep := rfl
@[simp] theorem setValue_phase (v : Byte) (s : State) : (setValue v s).phase = s.phase := rfl
@[simp] theorem setValue_k (v : Byte) (s : State) : (setValue v s).k = s.k := rfl
@[simp] theorem setValue_outstanding (v : Byte) (s : State) : (setValue v s).outstanding = s.outstanding := rfl
@[simp] theorem setValue_req (v : Byte) (s : State) : (setValue v s).req = s.req := rfl
@[simp] theorem setValue_tx (v : Byte) (s : State) : (setValue v s).tx = s.tx := rfl
@[simp] theorem setValue_rx (v : Byte) (s : State) : (setValue v s).rx = s.rx := rfl
@[simp] theorem setValue_bundle (v : Byte) (s : State) : (setValue v s).bundle = s.bundle := rfl
@[simp] theorem setValue_res (v : Byte) (s : State) : (setValue v s).res = { s.res with value := v } := rfl
@[simp] theorem setValue_asleepAccess (v : Byte) (s : State) : (setValue v s).asleepAccess = s.asleepAccess := rfl
@[simp] theorem setValue_sleepLatch (v : Byte) (s : State) : (setValue v s).sleepLatch = s.sleepLatch := rfl
@[simp] theorem setValue_disableLine (v : Byte) (s : State) : (setValue v s).disableLine = s.disableLine := rfl
@[simp] theorem setValue_faultLine (v : Byte) (s : State) : (setValue v s).faultLine = s.faultLine := rfl
@[simp] theorem setValue_history (v : Byte) (s : State) : (setValue v s).history = s.history := rfl
@[simp] theorem setValue_offers (v : Byte) (s : State) : (setValue v s).offers = s.offers := rfl
@[simp] theorem setValue_transport (v : Byte) (s : State) : (setValue v s).transport = s.transport := rfl
@[simp] theorem setValue_sleepPin (v : Byte) (s : State) : (setValue v s).sleepPin = s.sleepPin := rfl
@[simp] theorem setValue_delay (v : Byte) (s : State) : (setValue v s).delay = s.delay := rfl
@[simp] theorem setValue_drawn (v : Byte) (s : State) : (setValue v s).drawn = s.drawn := rfl

/-! ### `setWvalue` -/

@[simp] theorem setWvalue_params (v : Byte) (s : State) : (setWvalue v s).params = s.params := rfl
@[simp] theorem setWvalue_sleep (v : Byte) (s : State) : (setWvalue v s).sleep = s.sleep := rfl
@[simp] theorem setWvalue_phase (v : Byte) (s : State) : (setWvalue v s).phase = s.phase := rfl
@[simp] theorem setWvalue_k (v : Byte) (s : State) : (setWvalue v s).k = s.k := rfl
@[simp] theorem setWvalue_outstanding (v : Byte) (s : State) : (setWvalue v s).outstanding = s.outstanding := rfl
@[simp] theorem setWvalue_req (v : Byte) (s : State) : (setWvalue v s).req = s.req := rfl
@[simp] theorem setWvalue_tx (v : Byte) (s : State) : (setWvalue v s).tx = s.tx := rfl
@[simp] theorem setWvalue_rx (v : Byte) (s : State) : (setWvalue v s).rx = s.rx := rfl
@[simp] theorem setWvalue_bundle (v : Byte) (s : State) : (setWvalue v s).bundle = s.bundle := rfl
@[simp] theorem setWvalue_res (v : Byte) (s : State) : (setWvalue v s).res = { s.res with wvalue := v } := rfl
@[simp] theorem setWvalue_asleepAccess (v : Byte) (s : State) : (setWvalue v s).asleepAccess = s.asleepAccess := rfl
@[simp] theorem setWvalue_sleepLatch (v : Byte) (s : State) : (setWvalue v s).sleepLatch = s.sleepLatch := rfl
@[simp] theorem setWvalue_disableLine (v : Byte) (s : State) : (setWvalue v s).disableLine = s.disableLine := rfl
@[simp] theorem setWvalue_faultLine (v : Byte) (s : State) : (setWvalue v s).faultLine = s.faultLine := rfl
@[simp] theorem setWvalue_history (v : Byte) (s : State) : (setWvalue v s).history = s.history := rfl
@[simp] theorem setWvalue_offers (v : Byte) (s : State) : (setWvalue v s).offers = s.offers := rfl
@[simp] theorem setWvalue_transport (v : Byte) (s : State) : (setWvalue v s).transport = s.transport := rfl
@[simp] theorem setWvalue_sleepPin (v : Byte) (s : State) : (setWvalue v s).sleepPin = s.sleepPin := rfl
@[simp] theorem setWvalue_delay (v : Byte) (s : State) : (setWvalue v s).delay = s.delay := rfl
@[simp] theorem setWvalue_drawn (v : Byte) (s : State) : (setWvalue v s).drawn = s.drawn := rfl

/-! ### `setCfg` -/

@[simp] theorem setCfg_params (c : Cfg) (s : State) : (setCfg c s).params = s.params := rfl
@[simp] theorem setCfg_sleep (c : Cfg) (s : State) : (setCfg c s).sleep = s.sleep := rfl
@[simp] theorem setCfg_phase (c : Cfg) (s : State) : (setCfg c s).phase = s.phase := rfl
@[simp] theorem setCfg_k (c : Cfg) (s : State) : (setCfg c s).k = s.k := rfl
@[simp] theorem setCfg_outstanding (c : Cfg) (s : State) : (setCfg c s).outstanding = s.outstanding := rfl
@[simp] theorem setCfg_req (c : Cfg) (s : State) : (setCfg c s).req = s.req := rfl
@[simp] theorem setCfg_tx (c : Cfg) (s : State) : (setCfg c s).tx = s.tx := rfl
@[simp] theorem setCfg_rx (c : Cfg) (s : State) : (setCfg c s).rx = s.rx := rfl
@[simp] theorem setCfg_bundle (c : Cfg) (s : State) : (setCfg c s).bundle = s.bundle := rfl
@[simp] theorem setCfg_res (c : Cfg) (s : State) : (setCfg c s).res = { s.res with cfg := c } := rfl
@[simp] theorem setCfg_asleepAccess (c : Cfg) (s : State) : (setCfg c s).asleepAccess = s.asleepAccess := rfl
@[simp] theorem setCfg_sleepLatch (c : Cfg) (s : State) : (setCfg c s).sleepLatch = s.sleepLatch := rfl
@[simp] theorem setCfg_disableLine (c : Cfg) (s : State) : (setCfg c s).disableLine = s.disableLine := rfl
@[simp] theorem setCfg_faultLine (c : Cfg) (s : State) : (setCfg c s).faultLine = s.faultLine := rfl
@[simp] theorem setCfg_history (c : Cfg) (s : State) : (setCfg c s).history = s.history := rfl
@[simp] theorem setCfg_offers (c : Cfg) (s : State) : (setCfg c s).offers = s.offers := rfl
@[simp] theorem setCfg_transport (c : Cfg) (s : State) : (setCfg c s).transport = s.transport := rfl
@[simp] theorem setCfg_sleepPin (c : Cfg) (s : State) : (setCfg c s).sleepPin = s.sleepPin := rfl
@[simp] theorem setCfg_delay (c : Cfg) (s : State) : (setCfg c s).delay = s.delay := rfl
@[simp] theorem setCfg_drawn (c : Cfg) (s : State) : (setCfg c s).drawn = s.drawn := rfl

/-! ### `setWcfg` -/

@[simp] theorem setWcfg_params (c : Cfg) (s : State) : (setWcfg c s).params = s.params := rfl
@[simp] theorem setWcfg_sleep (c : Cfg) (s : State) : (setWcfg c s).sleep = s.sleep := rfl
@[simp] theorem setWcfg_phase (c : Cfg) (s : State) : (setWcfg c s).phase = s.phase := rfl
@[simp] theorem setWcfg_k (c : Cfg) (s : State) : (setWcfg c s).k = s.k := rfl
@[simp] theorem setWcfg_outstanding (c : Cfg) (s : State) : (setWcfg c s).outstanding = s.outstanding := rfl
@[simp] theorem setWcfg_req (c : Cfg) (s : State) : (setWcfg c s).req = s.req := rfl
@[simp] theorem setWcfg_tx (c : Cfg) (s : State) : (setWcfg c s).tx = s.tx := rfl
@[simp] theorem setWcfg_rx (c : Cfg) (s : State) : (setWcfg c s).rx = s.rx := rfl
@[simp] theorem setWcfg_bundle (c : Cfg) (s : State) : (setWcfg c s).bundle = s.bundle := rfl
@[simp] theorem setWcfg_res (c : Cfg) (s : State) : (setWcfg c s).res = { s.res with wcfg := c } := rfl
@[simp] theorem setWcfg_asleepAccess (c : Cfg) (s : State) : (setWcfg c s).asleepAccess = s.asleepAccess := rfl
@[simp] theorem setWcfg_sleepLatch (c : Cfg) (s : State) : (setWcfg c s).sleepLatch = s.sleepLatch := rfl
@[simp] theorem setWcfg_disableLine (c : Cfg) (s : State) : (setWcfg c s).disableLine = s.disableLine := rfl
@[simp] theorem setWcfg_faultLine (c : Cfg) (s : State) : (setWcfg c s).faultLine = s.faultLine := rfl
@[simp] theorem setWcfg_history (c : Cfg) (s : State) : (setWcfg c s).history = s.history := rfl
@[simp] theorem setWcfg_offers (c : Cfg) (s : State) : (setWcfg c s).offers = s.offers := rfl
@[simp] theorem setWcfg_transport (c : Cfg) (s : State) : (setWcfg c s).transport = s.transport := rfl
@[simp] theorem setWcfg_sleepPin (c : Cfg) (s : State) : (setWcfg c s).sleepPin = s.sleepPin := rfl
@[simp] theorem setWcfg_delay (c : Cfg) (s : State) : (setWcfg c s).delay = s.delay := rfl
@[simp] theorem setWcfg_drawn (c : Cfg) (s : State) : (setWcfg c s).drawn = s.drawn := rfl

/-! ### `setBundle` -/

@[simp] theorem setBundle_params (i : Nat) (v : Byte) (s : State) : (setBundle i v s).params = s.params := rfl
@[simp] theorem setBundle_sleep (i : Nat) (v : Byte) (s : State) : (setBundle i v s).sleep = s.sleep := rfl
@[simp] theorem setBundle_phase (i : Nat) (v : Byte) (s : State) : (setBundle i v s).phase = s.phase := rfl
@[simp] theorem setBundle_k (i : Nat) (v : Byte) (s : State) : (setBundle i v s).k = s.k := rfl
@[simp] theorem setBundle_outstanding (i : Nat) (v : Byte) (s : State) :
    (setBundle i v s).outstanding = s.outstanding := rfl
@[simp] theorem setBundle_req (i : Nat) (v : Byte) (s : State) : (setBundle i v s).req = s.req := rfl
@[simp] theorem setBundle_tx (i : Nat) (v : Byte) (s : State) : (setBundle i v s).tx = s.tx := rfl
@[simp] theorem setBundle_rx (i : Nat) (v : Byte) (s : State) : (setBundle i v s).rx = s.rx := rfl
@[simp] theorem setBundle_bundle (i : Nat) (v : Byte) (s : State) :
    (setBundle i v s).bundle = s.bundle.setIfInBounds i v := rfl
@[simp] theorem setBundle_res (i : Nat) (v : Byte) (s : State) : (setBundle i v s).res = s.res := rfl
@[simp] theorem setBundle_asleepAccess (i : Nat) (v : Byte) (s : State) :
    (setBundle i v s).asleepAccess = s.asleepAccess := rfl
@[simp] theorem setBundle_sleepLatch (i : Nat) (v : Byte) (s : State) :
    (setBundle i v s).sleepLatch = s.sleepLatch := rfl
@[simp] theorem setBundle_disableLine (i : Nat) (v : Byte) (s : State) :
    (setBundle i v s).disableLine = s.disableLine := rfl
@[simp] theorem setBundle_faultLine (i : Nat) (v : Byte) (s : State) :
    (setBundle i v s).faultLine = s.faultLine := rfl
@[simp] theorem setBundle_history (i : Nat) (v : Byte) (s : State) : (setBundle i v s).history = s.history := rfl
@[simp] theorem setBundle_offers (i : Nat) (v : Byte) (s : State) : (setBundle i v s).offers = s.offers := rfl
@[simp] theorem setBundle_transport (i : Nat) (v : Byte) (s : State) :
    (setBundle i v s).transport = s.transport := rfl
@[simp] theorem setBundle_sleepPin (i : Nat) (v : Byte) (s : State) : (setBundle i v s).sleepPin = s.sleepPin := rfl
@[simp] theorem setBundle_delay (i : Nat) (v : Byte) (s : State) : (setBundle i v s).delay = s.delay := rfl
@[simp] theorem setBundle_drawn (i : Nat) (v : Byte) (s : State) : (setBundle i v s).drawn = s.drawn := rfl

/-! ### `setSleepLatch` -/

@[simp] theorem setSleepLatch_params (l : PinLevel) (s : State) : (setSleepLatch l s).params = s.params := rfl
@[simp] theorem setSleepLatch_sleep (l : PinLevel) (s : State) : (setSleepLatch l s).sleep = s.sleep := rfl
@[simp] theorem setSleepLatch_phase (l : PinLevel) (s : State) : (setSleepLatch l s).phase = s.phase := rfl
@[simp] theorem setSleepLatch_k (l : PinLevel) (s : State) : (setSleepLatch l s).k = s.k := rfl
@[simp] theorem setSleepLatch_outstanding (l : PinLevel) (s : State) :
    (setSleepLatch l s).outstanding = s.outstanding := rfl
@[simp] theorem setSleepLatch_req (l : PinLevel) (s : State) : (setSleepLatch l s).req = s.req := rfl
@[simp] theorem setSleepLatch_tx (l : PinLevel) (s : State) : (setSleepLatch l s).tx = s.tx := rfl
@[simp] theorem setSleepLatch_rx (l : PinLevel) (s : State) : (setSleepLatch l s).rx = s.rx := rfl
@[simp] theorem setSleepLatch_bundle (l : PinLevel) (s : State) : (setSleepLatch l s).bundle = s.bundle := rfl
@[simp] theorem setSleepLatch_res (l : PinLevel) (s : State) : (setSleepLatch l s).res = s.res := rfl
@[simp] theorem setSleepLatch_asleepAccess (l : PinLevel) (s : State) :
    (setSleepLatch l s).asleepAccess = s.asleepAccess := rfl
@[simp] theorem setSleepLatch_sleepLatch (l : PinLevel) (s : State) : (setSleepLatch l s).sleepLatch = some l := rfl
@[simp] theorem setSleepLatch_disableLine (l : PinLevel) (s : State) :
    (setSleepLatch l s).disableLine = s.disableLine := rfl
@[simp] theorem setSleepLatch_faultLine (l : PinLevel) (s : State) :
    (setSleepLatch l s).faultLine = s.faultLine := rfl
@[simp] theorem setSleepLatch_history (l : PinLevel) (s : State) : (setSleepLatch l s).history = s.history := rfl
@[simp] theorem setSleepLatch_offers (l : PinLevel) (s : State) : (setSleepLatch l s).offers = s.offers := rfl
@[simp] theorem setSleepLatch_transport (l : PinLevel) (s : State) :
    (setSleepLatch l s).transport = s.transport := rfl
@[simp] theorem setSleepLatch_sleepPin (l : PinLevel) (s : State) : (setSleepLatch l s).sleepPin = s.sleepPin := rfl
@[simp] theorem setSleepLatch_delay (l : PinLevel) (s : State) : (setSleepLatch l s).delay = s.delay := rfl
@[simp] theorem setSleepLatch_drawn (l : PinLevel) (s : State) : (setSleepLatch l s).drawn = s.drawn := rfl

/-! ### `setSleep` -/

@[simp] theorem setSleep_params (x : SleepState) (s : State) : (setSleep x s).params = s.params := rfl
@[simp] theorem setSleep_sleep (x : SleepState) (s : State) : (setSleep x s).sleep = x := rfl
@[simp] theorem setSleep_phase (x : SleepState) (s : State) : (setSleep x s).phase = s.phase := rfl
@[simp] theorem setSleep_k (x : SleepState) (s : State) : (setSleep x s).k = s.k := rfl
@[simp] theorem setSleep_outstanding (x : SleepState) (s : State) : (setSleep x s).outstanding = s.outstanding := rfl
@[simp] theorem setSleep_req (x : SleepState) (s : State) : (setSleep x s).req = s.req := rfl
@[simp] theorem setSleep_tx (x : SleepState) (s : State) : (setSleep x s).tx = s.tx := rfl
@[simp] theorem setSleep_rx (x : SleepState) (s : State) : (setSleep x s).rx = s.rx := rfl
@[simp] theorem setSleep_bundle (x : SleepState) (s : State) : (setSleep x s).bundle = s.bundle := rfl
@[simp] theorem setSleep_res (x : SleepState) (s : State) : (setSleep x s).res = s.res := rfl
@[simp] theorem setSleep_asleepAccess (x : SleepState) (s : State) :
    (setSleep x s).asleepAccess = s.asleepAccess := rfl
@[simp] theorem setSleep_sleepLatch (x : SleepState) (s : State) : (setSleep x s).sleepLatch = s.sleepLatch := rfl
@[simp] theorem setSleep_disableLine (x : SleepState) (s : State) : (setSleep x s).disableLine = s.disableLine := rfl
@[simp] theorem setSleep_faultLine (x : SleepState) (s : State) : (setSleep x s).faultLine = s.faultLine := rfl
@[simp] theorem setSleep_history (x : SleepState) (s : State) : (setSleep x s).history = s.history := rfl
@[simp] theorem setSleep_offers (x : SleepState) (s : State) : (setSleep x s).offers = s.offers := rfl
@[simp] theorem setSleep_transport (x : SleepState) (s : State) : (setSleep x s).transport = s.transport := rfl
@[simp] theorem setSleep_sleepPin (x : SleepState) (s : State) : (setSleep x s).sleepPin = s.sleepPin := rfl
@[simp] theorem setSleep_delay (x : SleepState) (s : State) : (setSleep x s).delay = s.delay := rfl
@[simp] theorem setSleep_drawn (x : SleepState) (s : State) : (setSleep x s).drawn = s.drawn := rfl

/-! ### The two fields an issue changes for an exchange alone -/

/-- An exchange loads `tx` (R24). -/
@[simp] theorem issue_exchange_tx (sent : List Byte) (s : State) :
    (issue (.exchange sent) s).tx = loadTx sent s.tx := rfl
@[simp] theorem issue_pinSet_tx (l : PinLevel) (s : State) : (issue (.pinSet l) s).tx = s.tx := rfl
@[simp] theorem issue_delay_tx (us : Nat) (s : State) : (issue (.delay us) s).tx = s.tx := rfl

/-- An exchange sets the mark when the device may be asleep (R28, R307). -/
@[simp] theorem issue_exchange_asleepAccess (sent : List Byte) (s : State) :
    (issue (.exchange sent) s).asleepAccess = (s.asleepAccess || accessWhileAsleep s) := rfl
@[simp] theorem issue_pinSet_asleepAccess (l : PinLevel) (s : State) :
    (issue (.pinSet l) s).asleepAccess = s.asleepAccess := rfl
@[simp] theorem issue_delay_asleepAccess (us : Nat) (s : State) :
    (issue (.delay us) s).asleepAccess = s.asleepAccess := rfl

end Sys2Proof.Machine
end

