-- ==== Sys2Proof/Laws/Sequencer.lean ====
section
/-!
SUPPORT. The sequencer: what each of the shared operations can do, said once. The `runStages_…` lemmas run one stage on a
given answer; `runStages_keeps` carries a property along the stages; `Untouched` carries what no shared operation writes.
-/

namespace Sys2Proof.Machine

/-! ### Answers laid out in State -/

theorem nextBusReply_cons {s : State} {r : BusReply} {rest : List BusReply} (h : s.transport = r :: rest) :
    nextBusReply s = r := by simp [nextBusReply, h]
theorem takeBusReply_cons {s : State} {r : BusReply} {rest : List BusReply} (h : s.transport = r :: rest) :
    takeBusReply s = { s with transport := rest } := by simp [takeBusReply, h]
theorem nextPinReply_cons {s : State} {r : PinReply} {rest : List PinReply} (h : s.sleepPin = r :: rest) :
    nextPinReply s = r := by simp [nextPinReply, h]
theorem takePinReply_cons {s : State} {r : PinReply} {rest : List PinReply} (h : s.sleepPin = r :: rest) :
    takePinReply s = { s with sleepPin := rest } := by simp [takePinReply, h]
theorem nextDelayReply_cons {s : State} {r : DelayReply} {rest : List DelayReply} (h : s.delay = r :: rest) :
    nextDelayReply s = r := by simp [nextDelayReply, h]
theorem takeDelayReply_cons {s : State} {r : DelayReply} {rest : List DelayReply} (h : s.delay = r :: rest) :
    takeDelayReply s = { s with delay := rest } := by simp [takeDelayReply, h]

/-! ### The wait for an answer: every case -/

/-- An event has returned in one of three ways. -/
theorem awaitAnswer_answered {e : Event} {s t : State} (h : awaitAnswer e s = .answered t) :
    (∃ sent received, e = .exchange sent ∧ nextBusReply s = .ok received
        ∧ t = recordExchange sent.length received (takeBusReply s))
      ∨ (∃ l, e = .pinSet l ∧ nextPinReply s = .ok ∧ t = clearOutstanding (takePinReply s))
      ∨ (∃ us, e = .delay us ∧ nextDelayReply s = .done ∧ t = clearOutstanding (takeDelayReply s)) := by
  cases e with
  | exchange sent =>
    simp only [awaitAnswer] at h
    split at h <;> simp_all
  | pinSet l =>
    simp only [awaitAnswer] at h
    split at h <;> simp_all
  | delay us =>
    simp only [awaitAnswer] at h
    split at h <;> simp_all

/-- An event has failed in one of two ways; a delay cannot (R305). -/
theorem awaitAnswer_failed {e : Event} {s t : State} {x : Err} {w : Bool} (h : awaitAnswer e s = .failed x w t) :
    (∃ sent, e = .exchange sent ∧ nextBusReply s = .err ∧ x = .transport ∧ w = hasWriteFrame sent
        ∧ t = recordFailedExchange (takeBusReply s))
      ∨ (∃ l, e = .pinSet l ∧ nextPinReply s = .err ∧ x = .pin ∧ w = false
        ∧ t = recordFailedPin (takePinReply s)) := by
  cases e with
  | exchange sent =>
    simp only [awaitAnswer] at h
    split at h <;> simp_all
  | pinSet l =>
    simp only [awaitAnswer] at h
    split at h <;> simp_all
  | delay us =>
    simp only [awaitAnswer] at h
    split at h <;> simp_all

/-- An event has no answer yet: the one reply taken is all that changes (I13). -/
theorem awaitAnswer_waiting {e : Event} {s t : State} (h : awaitAnswer e s = .waiting t) :
    t = takeBusReply s ∨ t = takePinReply s ∨ t = takeDelayReply s := by
  cases e with
  | exchange sent =>
    simp only [awaitAnswer] at h
    split at h <;> simp_all
  | pinSet l =>
    simp only [awaitAnswer] at h
    split at h <;> simp_all
  | delay us =>
    simp only [awaitAnswer] at h
    split at h <;> simp_all

/-! ### One stage on a given answer -/

@[simp] theorem runStages_nil (s : State) : runStages [] s = complete .ok false s := rfl

theorem runStages_exchange_ok {g : Stage} {gs : List Stage} {s : State} {sent : List Byte} {received : Bytes8}
    {rest : List BusReply} (he : g.event s = .exchange sent) (ht : s.transport = .ok received :: rest) :
    runStages (g :: gs) s = runStages gs (g.done
      (recordExchange sent.length received { issue (.exchange sent) s with transport := rest })) := by
  have hi : (issue (.exchange sent) s).transport = .ok received :: rest := by simpa using ht
  rw [runStages, he]
  simp only [awaitAnswer, nextBusReply_cons hi, takeBusReply_cons hi]

theorem runStages_exchange_err {g : Stage} {gs : List Stage} {s : State} {sent : List Byte} {rest : List BusReply}
    (he : g.event s = .exchange sent) (ht : s.transport = .err :: rest) :
    runStages (g :: gs) s = complete .transport (hasWriteFrame sent)
      (recordFailedExchange { issue (.exchange sent) s with transport := rest }) := by
  have hi : (issue (.exchange sent) s).transport = .err :: rest := by simpa using ht
  rw [runStages, he]
  simp only [awaitAnswer, nextBusReply_cons hi, takeBusReply_cons hi]

theorem runStages_exchange_notYet {g : Stage} {gs : List Stage} {s : State} {sent : List Byte}
    {rest : List BusReply} (he : g.event s = .exchange sent) (ht : s.transport = .notYet :: rest) :
    runStages (g :: gs) s = { issue (.exchange sent) s with transport := rest } := by
  have hi : (issue (.exchange sent) s).transport = .notYet :: rest := by simpa using ht
  rw [runStages, he]
  simp only [awaitAnswer, nextBusReply_cons hi, takeBusReply_cons hi]

theorem runStages_pinSet_ok {g : Stage} {gs : List Stage} {s : State} {l : PinLevel} {rest : List PinReply}
    (he : g.event s = .pinSet l) (ht : s.sleepPin = .ok :: rest) :
    runStages (g :: gs) s = runStages gs (g.done
      (clearOutstanding { issue (.pinSet l) s with sleepPin := rest })) := by
  have hi : (issue (.pinSet l) s).sleepPin = .ok :: rest := by simpa using ht
  rw [runStages, he]
  simp only [awaitAnswer, nextPinReply_cons hi, takePinReply_cons hi]

theorem runStages_pinSet_err {g : Stage} {gs : List Stage} {s : State} {l : PinLevel} {rest : List PinReply}
    (he : g.event s = .pinSet l) (ht : s.sleepPin = .err :: rest) :
    runStages (g :: gs) s = complete .pin false
      (recordFailedPin { issue (.pinSet l) s with sleepPin := rest }) := by
  have hi : (issue (.pinSet l) s).sleepPin = .err :: rest := by simpa using ht
  rw [runStages, he]
  simp only [awaitAnswer, nextPinReply_cons hi, takePinReply_cons hi]

theorem runStages_pinSet_notYet {g : Stage} {gs : List Stage} {s : State} {l : PinLevel} {rest : List PinReply}
    (he : g.event s = .pinSet l) (ht : s.sleepPin = .notYet :: rest) :
    runStages (g :: gs) s = { issue (.pinSet l) s with sleepPin := rest } := by
  have hi : (issue (.pinSet l) s).sleepPin = .notYet :: rest := by simpa using ht
  rw [runStages, he]
  simp only [awaitAnswer, nextPinReply_cons hi, takePinReply_cons hi]

theorem runStages_delay_done {g : Stage} {gs : List Stage} {s : State} {us : Nat} {rest : List DelayReply}
    (he : g.event s = .delay us) (ht : s.delay = .done :: rest) :
    runStages (g :: gs) s = runStages gs (g.done
      (clearOutstanding { issue (.delay us) s with delay := rest })) := by
  have hi : (issue (.delay us) s).delay = .done :: rest := by simpa using ht
  rw [runStages, he]
  simp only [awaitAnswer, nextDelayReply_cons hi, takeDelayReply_cons hi]

theorem runStages_delay_notYet {g : Stage} {gs : List Stage} {s : State} {us : Nat} {rest : List DelayReply}
    (he : g.event s = .delay us) (ht : s.delay = .notYet :: rest) :
    runStages (g :: gs) s = { issue (.delay us) s with delay := rest } := by
  have hi : (issue (.delay us) s).delay = .notYet :: rest := by simpa using ht
  rw [runStages, he]
  simp only [awaitAnswer, nextDelayReply_cons hi, takeDelayReply_cons hi]

/-! ### Acceptance (R220) -/

theorem acceptRequest_busy (r : Request) (p : Program) {s : State} (h : s.phase = .busy) :
    acceptRequest r p s = s := by simp [acceptRequest, h]

theorem acceptRequest_refused {r : Request} (p : Program) {s : State} {sub : MisuseSub} (h : s.phase = .idle)
    (hv : validate r.header = some sub) : acceptRequest r p s = refuse sub s := by
  simp [acceptRequest, h, hv]

theorem acceptRequest_valid {r : Request} (p : Program) {s : State} (h : s.phase = .idle)
    (hv : validate r.header = none) :
    acceptRequest r p s = runStages (p.stages (latch r s)) (p.start (latch r s)) := by
  simp [acceptRequest, h, hv]

/-- Acceptance in one of three ways. -/
theorem acceptRequest_cases (r : Request) (p : Program) (s : State) :
    (s.phase = .busy ∧ acceptRequest r p s = s)
      ∨ (s.phase = .idle ∧ ∃ sub, validate r.header = some sub ∧ acceptRequest r p s = refuse sub s)
      ∨ (s.phase = .idle ∧ validate r.header = none
        ∧ acceptRequest r p s = runStages (p.stages (latch r s)) (p.start (latch r s))) := by
  unfold acceptRequest
  cases hp : s.phase
  · cases hv : validate r.header <;> simp
  · simp

/-! ### A property along the stages -/

/-- Carry a property along the stages of a request: P of the stages left and the state before each event, Q of what the
run ends in. -/
theorem runStages_keeps {P : List Stage → State → Prop} {Q : State → Prop}
    (atEnd : ∀ s, P [] s → Q (complete .ok false s))
    (waits : ∀ g gs s t, P (g :: gs) s → awaitAnswer (g.event s) (issue (g.event s) s) = .waiting t → Q t)
    (fails : ∀ g gs s e w t, P (g :: gs) s → awaitAnswer (g.event s) (issue (g.event s) s) = .failed e w t →
      Q (complete e w t))
    (goesOn : ∀ g gs s t, P (g :: gs) s → awaitAnswer (g.event s) (issue (g.event s) s) = .answered t →
      P gs (g.done t)) :
    ∀ gs s, P gs s → Q (runStages gs s) := by
  intro gs
  induction gs with
  | nil => exact fun s hP => atEnd s hP
  | cons g gs ih =>
    intro s hP
    rw [runStages]
    cases hA : awaitAnswer (g.event s) (issue (g.event s) s) with
    | waiting t => exact waits g gs s t hP hA
    | failed e w t => exact fails g gs s e w t hP hA
    | answered t => exact ih _ (goesOn g gs s t hP hA)

/-- A view of State that no shared operation of the sequencer changes. -/
structure Untouched {α : Type} (view : State → α) : Prop where
  issue : ∀ e s, view (issue e s) = view s
  bus : ∀ s, view (takeBusReply s) = view s
  pin : ∀ s, view (takePinReply s) = view s
  delay : ∀ s, view (takeDelayReply s) = view s
  exchange : ∀ n r s, view (recordExchange n r s) = view s
  failedExchange : ∀ s, view (recordFailedExchange s) = view s
  clear : ∀ s, view (clearOutstanding s) = view s
  failedPin : ∀ s, view (recordFailedPin s) = view s
  complete : ∀ e w s, view (complete e w s) = view s

/-- Such a view survives the wait for an answer. -/
theorem Untouched.await {α : Type} {view : State → α} (u : Untouched view) (e : Event) (s : State) :
    match awaitAnswer e s with
    | .waiting t => view t = view s
    | .failed _ _ t => view t = view s
    | .answered t => view t = view s := by
  cases hA : awaitAnswer e s with
  | waiting t => rcases awaitAnswer_waiting hA with rfl | rfl | rfl <;> simp [u.bus, u.pin, u.delay]
  | failed x w t =>
    rcases awaitAnswer_failed hA with ⟨_, _, _, _, _, rfl⟩ | ⟨_, _, _, _, _, rfl⟩ <;>
      simp [u.bus, u.pin, u.failedExchange, u.failedPin]
  | answered t =>
    rcases awaitAnswer_answered hA with ⟨_, _, _, _, rfl⟩ | ⟨_, _, _, rfl⟩ | ⟨_, _, _, rfl⟩ <;>
      simp [u.bus, u.pin, u.delay, u.exchange, u.clear]

/-- Such a view survives a run whose stages leave it alone. -/
theorem Untouched.runStages {α : Type} {view : State → α} (u : Untouched view) {gs : List Stage}
    (hg : ∀ g ∈ gs, ∀ s, view (g.done s) = view s) (s : State) : view (runStages gs s) = view s := by
  refine runStages_keeps (P := fun l t => view t = view s ∧ ∀ g ∈ l, ∀ s, view (g.done s) = view s)
    (Q := fun t => view t = view s) ?_ ?_ ?_ ?_ gs s ⟨rfl, hg⟩
  · intro t h
    rw [u.complete, h.1]
  · intro g l t t' h hA
    have := u.await (g.event t) (Machine.issue (g.event t) t)
    simp only [hA] at this
    rw [this, u.issue, h.1]
  · intro g l t e w t' h hA
    have := u.await (g.event t) (Machine.issue (g.event t) t)
    simp only [hA] at this
    rw [u.complete, this, u.issue, h.1]
  · intro g l t t' h hA
    have := u.await (g.event t) (Machine.issue (g.event t) t)
    simp only [hA] at this
    refine ⟨?_, fun g' hg' => h.2 g' (List.mem_cons_of_mem _ hg')⟩
    rw [h.2 g List.mem_cons_self, this, u.issue, h.1]

/-- And a resumption whose stages leave it alone. -/
theorem Untouched.resume {α : Type} {view : State → α} (u : Untouched view) {p : Program} {s : State}
    (hg : ∀ g ∈ p.stages s, ∀ t, view (g.done t) = view t) : view (resume p s) = view s := by
  unfold Machine.resume
  cases ho : s.outstanding with
  | none => exact u.runStages (fun g h => hg g (List.mem_of_mem_drop h)) s
  | some e =>
    have ha := u.await e s
    cases hA : awaitAnswer e s with
    | waiting t =>
      simp only [hA] at ha ⊢
      exact ha
    | failed x w t =>
      simp only [hA] at ha ⊢
      rw [u.complete, ha]
    | answered t =>
      simp only [hA] at ha ⊢
      cases hd : (p.stages s).drop (s.k.toNat - 1) with
      | nil => simp only [u.complete, ha]
      | cons g gs =>
        have hm : ∀ g' ∈ g :: gs, g' ∈ p.stages s := fun g' h' => List.mem_of_mem_drop (hd ▸ h')
        simp only
        rw [u.runStages (fun g' h' => hg g' (hm g' (List.mem_cons_of_mem _ h'))), hg g (hm g List.mem_cons_self),
          ha]

theorem untouched_params : Untouched State.params := by constructor <;> simp
theorem untouched_req : Untouched State.req := by constructor <;> simp
theorem untouched_sleepLatch : Untouched State.sleepLatch := by constructor <;> simp
theorem untouched_disableLine : Untouched State.disableLine := by constructor <;> simp
theorem untouched_faultLine : Untouched State.faultLine := by constructor <;> simp
theorem untouched_offers : Untouched State.offers := by constructor <;> simp
theorem untouched_bundle : Untouched State.bundle := by constructor <;> simp

end Sys2Proof.Machine
end

