-- ==== Sys2Proof/Laws/Requests.lean ====
section
/-!
SUPPORT. Requests: the fields of an accepted header, the nine bodies by their operation codes, what `exec` comes to for a
request, and what a step does with the record on offer.
-/

namespace Sys2Proof.Machine

/-- A header is its three fields (R110). -/
theorem header_fields (h : Header) : headerOpc h ++ headerRsv h ++ headerAddr h = h := by
  have e1 : headerOpc h ++ headerRsv h = h.extractLsb' 5 11 :=
    (BitVec.extractLsb'_append_extractLsb'_eq_extractLsb' (by rfl)).trans rfl
  rw [e1]
  have e2 : h.extractLsb' 5 11 ++ headerAddr h = h.extractLsb' 0 16 :=
    (BitVec.extractLsb'_append_extractLsb'_eq_extractLsb' (by rfl)).trans rfl
  exact e2.trans (BitVec.extractLsb'_eq_self)

theorem headerWith_readReg : ∀ a : Addr, headerWith 0x1000#16 a = 0x1#4 ++ 0#7 ++ a := by decide
theorem headerWith_writeReg : ∀ a : Addr, headerWith 0x2000#16 a = 0x2#4 ++ 0#7 ++ a := by decide
theorem headerWith_modifyReg : ∀ a : Addr, headerWith 0x3000#16 a = 0x3#4 ++ 0#7 ++ a := by decide

/-- VALIDATE reads the three fields alone (R333). -/
theorem validate_rsv {h : Header} (hv : validate h = none) : headerRsv h = 0#7 := by
  by_contra hr
  unfold validate at hv
  simp only [hr, ne_eq, not_false_eq_true, if_true] at hv
  split at hv <;> simp at hv

/-- An accepted header is the latched one. -/
theorem latchHeader_of_valid {r : Request} (hv : validate r.header = none) :
    latchHeader (latchOf r) = r.header := by
  conv_rhs => rw [← header_fields r.header, validate_rsv hv]
  rfl

/-- VALIDATE accepts assigned operation codes alone. -/
theorem validate_opc {h : Header} (hv : validate h = none) : 1 ≤ (headerOpc h).toNat ∧ (headerOpc h).toNat ≤ 9 := by
  unfold validate at hv
  split at hv
  · cases hv
  · next hn =>
    have : headerOpc h ≠ 0#4 := fun e => hn (.inl e)
    have h2 : ¬ 0xA ≤ (headerOpc h).toNat := fun e => hn (.inr e)
    constructor
    · rcases Nat.eq_zero_or_pos (headerOpc h).toNat with h0 | h0
      · exact absurd (BitVec.eq_of_toNat_eq (by simpa using h0)) this
      · exact h0
    · omega

/-- What holds of the body of each of the nine operation codes holds of the body of any code that has one (R111). -/
theorem programOf_elim {motive : (o : BitVec 4) → (p : Program) → programOf o = some p → Prop}
    (readReg : motive 1#4 readRegProgram rfl) (writeReg : motive 2#4 writeRegProgram rfl)
    (modifyReg : motive 3#4 modifyRegProgram rfl) (readConfig : motive 4#4 readConfigProgram rfl)
    (writeConfig : motive 5#4 writeConfigProgram rfl) (modifyConfig : motive 6#4 modifyConfigProgram rfl)
    (clearFault : motive 7#4 clearFaultProgram rfl) (awaken : motive 8#4 awakenProgram rfl)
    (sleep : motive 9#4 sleepProgram rfl) (o : BitVec 4) (p : Program) (h : programOf o = some p) : motive o p h := by
  obtain ⟨⟨n, hn⟩⟩ := o
  match n, hn with
  | 1, _ => cases h; exact readReg
  | 2, _ => cases h; exact writeReg
  | 3, _ => cases h; exact modifyReg
  | 4, _ => cases h; exact readConfig
  | 5, _ => cases h; exact writeConfig
  | 6, _ => cases h; exact modifyConfig
  | 7, _ => cases h; exact clearFault
  | 8, _ => cases h; exact awaken
  | 9, _ => cases h; exact sleep
  | 0, _ | 10, _ | 11, _ | 12, _ | 13, _ | 14, _ | 15, _ => cases h
  | n + 16, hn => omega

/-- A request that is no reserved code is accepted with the program of its operation code; a reserved one is refused
(R111, R220). -/
theorem exec_accepts {i : Instr} (hi : IsRequest i) (s : State) :
    ∃ r p, exec i s = .next (acceptRequest r p s)
      ∧ (validate r.header = none → programOf (headerOpc r.header) = some p) := by
  have res : ∀ (o : BitVec 4) (rest : BitVec 12), (o = 0#4 ∨ 10 ≤ o.toNat) →
      validate (o ++ rest) = some .reservedOpc := by
    intro o rest ho
    have : headerOpc (o ++ rest) = o := by
      unfold headerOpc
      apply BitVec.eq_of_toNat_eq
      rw [BitVec.extractLsb'_toNat, BitVec.toNat_append]
      have := rest.isLt
      have := o.isLt
      rw [Nat.shiftRight_or_distrib]
      have h1 : o.toNat <<< 12 >>> 12 = o.toNat := by simp
      have h2 : rest.toNat >>> 12 = 0 := by
        rw [Nat.shiftRight_eq_div_pow]; exact Nat.div_eq_of_lt ‹_›
      rw [h1, h2]
      simp only [Nat.or_zero]
      exact Nat.mod_eq_of_lt this
    unfold validate; rw [this, if_pos ho]
  have bad : ∀ (o : BitVec 4) (rest : BitVec 12), (o = 0#4 ∨ 10 ≤ o.toNat) →
      ∃ r p, Host.Outcome.next (refuseRequest .reservedOpc s) = (.next (acceptRequest r p s) : Outcome)
        ∧ (validate r.header = none → programOf (headerOpc r.header) = some p) := by
    intro o rest ho
    refine ⟨{ Request.zero with header := o ++ rest }, readRegProgram, ?_, ?_⟩
    · simp only [acceptRequest, refuseRequest, res o rest ho]
    · simp only [res o rest ho]
      exact fun h => nomatch h
  have rr : ∀ a, ∃ r p, (Host.Outcome.next (readRegister a s) : Outcome) = .next (acceptRequest r p s)
        ∧ (validate r.header = none → programOf (headerOpc r.header) = some p) := fun a =>
    ⟨_, _, rfl, fun _ => by simp [recordBare, headerOpc_readReg, programOf]⟩
  have wr : ∀ a d, ∃ r p, (Host.Outcome.next (writeRegister a d s) : Outcome) = .next (acceptRequest r p s)
        ∧ (validate r.header = none → programOf (headerOpc r.header) = some p) := fun a d =>
    ⟨_, _, rfl, fun _ => by simp [recordData, headerOpc_writeReg, programOf]⟩
  have mr : ∀ a f, ∃ r p, (Host.Outcome.next (modifyRegister a f s) : Outcome) = .next (acceptRequest r p s)
        ∧ (validate r.header = none → programOf (headerOpc r.header) = some p) := fun a f =>
    ⟨_, _, rfl, fun _ => by cases f <;> simp [recordRegFn, headerOpc_modifyReg, programOf]⟩
  have wc : ∀ c, ∃ r p, (Host.Outcome.next (writeBundle c s) : Outcome) = .next (acceptRequest r p s)
        ∧ (validate r.header = none → programOf (headerOpc r.header) = some p) := fun c =>
    ⟨_, _, rfl, fun _ => by simp [recordCfg, headerOpc, programOf]⟩
  cases i with
  | readReg a => exact rr a
  | writeReg a d => exact wr a d
  | modifyReg a f => exact mr a f
  | readConfig => exact ⟨_, _, rfl, fun _ => by simp [recordBare, headerOpc, programOf]⟩
  | writeConfig c => exact wc c
  | modifyConfig f => exact ⟨_, _, rfl, fun _ => by cases f <;> simp [recordCfgFn, headerOpc, programOf]⟩
  | clearFault => exact ⟨_, _, rfl, fun _ => by simp [recordBare, headerOpc, programOf]⟩
  | awaken => exact ⟨_, _, rfl, fun _ => by simp [recordBare, headerOpc, programOf]⟩
  | sleep => exact ⟨_, _, rfl, fun _ => by simp [recordBare, headerOpc, programOf]⟩
  | reservedOpc0 r => exact bad 0#4 r (by decide)
  | reservedOpcA r => exact bad 0xA#4 r (by decide)
  | reservedOpcB r => exact bad 0xB#4 r (by decide)
  | reservedOpcC r => exact bad 0xC#4 r (by decide)
  | reservedOpcD r => exact bad 0xD#4 r (by decide)
  | reservedOpcE r => exact bad 0xE#4 r (by decide)
  | reservedOpcF r => exact bad 0xF#4 r (by decide)
  | readFault => exact rr _
  | readDiag => exact rr _
  | readIc1 => exact rr _
  | readIc2 => exact rr _
  | readIc3 => exact rr _
  | readIc4 => exact rr _
  | writeIc1 d => exact wr _ d
  | writeIc2 d => exact wr _ d
  | writeIc3 d => exact wr _ d
  | writeIc4 d => exact wr _ d
  | modifyIc1 m d => exact mr _ _
  | modifyIc2 m d => exact mr _ _
  | modifyIc3 m d => exact mr _ _
  | modifyIc4 m d => exact mr _ _
  | setBits a m => exact mr _ _
  | clrBits a m => exact mr _ _
  | writeDefaults => exact wc _
  | wireRead a => exact hi.elim
  | wireWrite a d => exact hi.elim

/-- A request offered is accepted as the very record on offer. -/
theorem step_offer {s : State} {r : Request} {more : List Request} (hs : s.phase = .idle) (ho : s.offers = r :: more) :
    (∃ sub, validate r.header = some sub ∧ step s = .next (refuse sub s))
    ∨ (validate r.header = none ∧ ∃ p, programOf (headerOpc r.header) = some p
        ∧ step s = .next (runStages (p.stages (latch r s)) (p.start (latch r s)))) := by
  have hof : offered s = r := by simp [offered, ho]
  cases hv : validate r.header with
  | some sub =>
    left
    refine ⟨sub, rfl, ?_⟩
    simp only [step, hs, ho]
    have hx : ∀ r' p, r' = r → acceptRequest r' p s = refuse sub s := fun r' p e =>
      acceptRequest_refused p hs (e ▸ hv)
    have hf := header_fields r.header
    have all : ∀ o : BitVec 4, o = 0 ∨ o = 1#4 ∨ o = 2#4 ∨ o = 3#4 ∨ o = 4#4 ∨ o = 5#4 ∨ o = 6#4 ∨ o = 7#4 ∨ o = 8#4
      ∨ o = 9#4 ∨ o = 10#4 ∨ o = 11#4 ∨ o = 12#4 ∨ o = 13#4 ∨ o = 14#4 ∨ o = 15#4 := by decide
    obtain ⟨o, ho'⟩ : ∃ o, headerOpc r.header = o := ⟨_, rfl⟩
    rw [ho'] at hf
    by_cases hr : headerRsv r.header = 0#7
    · rw [hr] at hf
      rcases all o with rfl | rfl | rfl | rfl | rfl | rfl | rfl | rfl | rfl | rfl | rfl | rfl | rfl | rfl | rfl | rfl
      · simp [validate, ho'] at hv; simp [decodeRequest, ho', exec, execReservedOpc0, refuseRequest, hs, hv]
      · have hd : decodeRequest r = .ok (.readReg (headerAddr r.header)) := by simp [decodeRequest, decodeAssigned, ho', hr]
        have e : recordBare (headerWith 0x1000#16 (headerAddr r.header)) r = r := by
          rw [headerWith_readReg, hf]; rfl
        simp only [hd, exec, execReadReg, readRegister, hof, e, hx]
      · have hd : decodeRequest r = .ok (.writeReg (headerAddr r.header) r.data) := by simp [decodeRequest, decodeAssigned, ho', hr]
        have e : recordData (headerWith 0x2000#16 (headerAddr r.header)) r.data r = r := by
          rw [headerWith_writeReg, hf]; rfl
        simp only [hd, exec, execWriteReg, writeRegister, hof, e, hx]
      · have hd : decodeRequest r = .ok (.modifyReg (headerAddr r.header) (reqRegTransform r)) := by simp [decodeRequest, decodeAssigned, ho', hr]
        have e : recordRegFn (headerWith 0x3000#16 (headerAddr r.header)) (reqRegTransform r) r = r := by
          rw [headerWith_modifyReg, hf]; rcases r with ⟨_,_,_,_,_,_|_,_⟩ <;> rfl
        simp only [hd, exec, execModifyReg, modifyRegister, hof, e, hx]
      all_goals try (
        have ha : headerAddr r.header ≠ 0#5 := by
          intro hc
          simp [validate, ho', hr, hc] at hv
        simp [validate, ho', hr, ha] at hv
        simp [decodeRequest, decodeAssigned, decodeBare, ho', hr, ha, misuseOf, hv])
      all_goals (simp [validate, ho'] at hv; simp [decodeRequest, ho', exec, execReservedOpcA, execReservedOpcB, execReservedOpcC, execReservedOpcD, execReservedOpcE, execReservedOpcF, refuseRequest, hs, hv])
    · rcases all o with rfl | rfl | rfl | rfl | rfl | rfl | rfl | rfl | rfl | rfl | rfl | rfl | rfl | rfl | rfl | rfl <;>
        simp [validate, ho', hr] at hv <;> simp [decodeRequest, ho', hr, exec, execReservedOpc0, execReservedOpcA, execReservedOpcB, execReservedOpcC, execReservedOpcD, execReservedOpcE, execReservedOpcF, refuseRequest, hs, hv, misuseOf]
  | none =>
    right
    refine ⟨rfl, ?_⟩
    have hr := validate_rsv hv
    obtain ⟨h1, h9⟩ := validate_opc hv
    have hf := header_fields r.header
    rw [hr] at hf
    have hx : ∀ p, acceptRequest r p s = runStages (p.stages (latch r s)) (p.start (latch r s)) := fun p =>
      acceptRequest_valid p hs hv
    obtain ⟨o, ho'⟩ : ∃ o, headerOpc r.header = o := ⟨_, rfl⟩
    rw [ho'] at hf h1 h9 ⊢
    simp only [step, hs, ho]
    have cases9 : ∀ o : BitVec 4, 1 ≤ o.toNat → o.toNat ≤ 9 → o = 1#4 ∨ o = 2#4 ∨ o = 3#4 ∨ o = 4#4 ∨ o = 5#4 ∨ o = 6#4
        ∨ o = 7#4 ∨ o = 8#4 ∨ o = 9#4 := by decide
    rcases cases9 o h1 h9 with rfl | rfl | rfl | rfl | rfl | rfl | rfl | rfl | rfl
    · refine ⟨readRegProgram, rfl, ?_⟩
      have hd : decodeRequest r = .ok (.readReg (headerAddr r.header)) := by simp [decodeRequest, decodeAssigned, ho', hr]
      have e : recordBare (headerWith 0x1000#16 (headerAddr r.header)) r = r := by
        rw [headerWith_readReg, hf]; rfl
      simp only [hd, exec, execReadReg, readRegister, hof, e, hx]
    · refine ⟨writeRegProgram, rfl, ?_⟩
      have hd : decodeRequest r = .ok (.writeReg (headerAddr r.header) r.data) := by simp [decodeRequest, decodeAssigned, ho', hr]
      have e : recordData (headerWith 0x2000#16 (headerAddr r.header)) r.data r = r := by
        rw [headerWith_writeReg, hf]; rfl
      simp only [hd, exec, execWriteReg, writeRegister, hof, e, hx]
    · refine ⟨modifyRegProgram, rfl, ?_⟩
      have hd : decodeRequest r = .ok (.modifyReg (headerAddr r.header) (reqRegTransform r)) := by simp [decodeRequest, decodeAssigned, ho', hr]
      have e : recordRegFn (headerWith 0x3000#16 (headerAddr r.header)) (reqRegTransform r) r = r := by
        rw [headerWith_modifyReg, hf]; rcases r with ⟨_,_,_,_,_,_|_,_⟩ <;> rfl
      simp only [hd, exec, execModifyReg, modifyRegister, hof, e, hx]
    all_goals
      have ha : headerAddr r.header = 0#5 := by
        by_contra hc
        simp [validate, ho', hr, hc] at hv
      rw [ha] at hf
    · refine ⟨readConfigProgram, rfl, ?_⟩
      have hd : decodeRequest r = .ok .readConfig := by simp [decodeRequest, decodeAssigned, decodeBare, ho', hr, ha]
      have e : recordBare 0x4000#16 r = r := by
        rw [show 0x4000#16 = r.header from hf]; rfl
      simp only [hd, exec, execReadConfig, hof, e, hx]
    · refine ⟨writeConfigProgram, rfl, ?_⟩
      have hd : decodeRequest r = .ok (.writeConfig r.cfg) := by simp [decodeRequest, decodeAssigned, decodeBare, ho', hr, ha]
      have e : recordCfg 0x5000#16 r.cfg r = r := by
        rw [show 0x5000#16 = r.header from hf]; rfl
      simp only [hd, exec, execWriteConfig, writeBundle, hof, e, hx]
    · refine ⟨modifyConfigProgram, rfl, ?_⟩
      have hd : decodeRequest r = .ok (.modifyConfig (reqCfgTransform r)) := by simp [decodeRequest, decodeAssigned, decodeBare, ho', hr, ha]
      have e : recordCfgFn 0x6000#16 (reqCfgTransform r) r = r := by
        rw [show 0x6000#16 = r.header from hf]; rcases r with ⟨_,_,_,_,_,_,_|_⟩ <;> rfl
      simp only [hd, exec, execModifyConfig, hof, e, hx]
    · refine ⟨clearFaultProgram, rfl, ?_⟩
      have hd : decodeRequest r = .ok .clearFault := by simp [decodeRequest, decodeAssigned, decodeBare, ho', hr, ha]
      have e : recordBare 0x7000#16 r = r := by
        rw [show 0x7000#16 = r.header from hf]; rfl
      simp only [hd, exec, execClearFault, hof, e, hx]
    · refine ⟨awakenProgram, rfl, ?_⟩
      have hd : decodeRequest r = .ok .awaken := by simp [decodeRequest, decodeAssigned, decodeBare, ho', hr, ha]
      have e : recordBare 0x8000#16 r = r := by
        rw [show 0x8000#16 = r.header from hf]; rfl
      simp only [hd, exec, execAwaken, hof, e, hx]
    · refine ⟨sleepProgram, rfl, ?_⟩
      have hd : decodeRequest r = .ok .sleep := by simp [decodeRequest, decodeAssigned, decodeBare, ho', hr, ha]
      have e : recordBare 0x9000#16 r = r := by
        rw [show 0x9000#16 = r.header from hf]; rfl
      simp only [hd, exec, execSleep, hof, e, hx]
end Sys2Proof.Machine
end

