-- ==== Sys2Proof/Laws/Runs.lean ====
section
/-!
SUPPORT. Runs of a request: what a step can do (`step_cases`), what every stage obeys (`StageLaws`), where a request can
stand (`Between` two events, `Waiting` for one), and the induction along a step (`step_induct`).
-/

namespace Sys2Proof.Machine

/-- What a step can do. -/
theorem step_cases {s t : State} (h : step s = .next t) :
    (s.phase = .idle ∧ s.offers = [] ∧ t = s)
    ∨ (s.phase = .idle ∧ ∃ r more sub, s.offers = r :: more ∧ validate r.header = some sub ∧ t = refuse sub s)
    ∨ (s.phase = .idle ∧ ∃ r more p, s.offers = r :: more ∧ validate r.header = none ∧ programOf (headerOpc r.header) = some p
        ∧ t = runStages (p.stages (latch r s)) (p.start (latch r s)))
    ∨ (s.phase = .busy ∧ ∃ p, programOf s.req.opc = some p ∧ t = resume p s) := by
  cases hs : s.phase with
  | idle =>
    cases ho : s.offers with
    | nil => left; simp [step, hs, ho] at h; exact ⟨rfl, rfl, h.symm⟩
    | cons r more =>
      right
      rcases step_offer hs ho with ⟨sub, hv, hx⟩ | ⟨hv, p, hp, hx⟩
      · left; rw [hx] at h; cases h; exact ⟨rfl, r, more, sub, rfl, hv, rfl⟩
      · right; left; rw [hx] at h; cases h; exact ⟨rfl, r, more, p, rfl, hv, hp, rfl⟩
  | busy =>
    right; right; right
    simp only [step, hs, continueBusy] at h
    cases hp : programOf s.req.opc with
    | none => rw [hp] at h; cases h
    | some p => rw [hp] at h; cases h; exact ⟨rfl, p, rfl, rfl⟩

/-- What every stage of every request obeys. -/
structure StageLaws (g : Stage) : Prop where
  event_ext : ∀ s t : State, t.params = s.params → t.req = s.req → t.res = s.res → g.event t = g.event s
  params : ∀ s, (g.done s).params = s.params
  req : ∀ s, (g.done s).req = s.req
  phase : ∀ s, (g.done s).phase = s.phase
  outstanding : ∀ s, (g.done s).outstanding = s.outstanding
  k : ∀ s, (g.done s).k = s.k
  history : ∀ s, (g.done s).history = s.history
  offers : ∀ s, (g.done s).offers = s.offers
  transport : ∀ s, (g.done s).transport = s.transport
  sleepPin : ∀ s, (g.done s).sleepPin = s.sleepPin
  delay : ∀ s, (g.done s).delay = s.delay
  drawn : ∀ s, (g.done s).drawn = s.drawn
  lines : ∀ s, (g.done s).disableLine = s.disableLine ∧ (g.done s).faultLine = s.faultLine
  mark : ∀ s, (g.done s).asleepAccess = s.asleepAccess
  err : ∀ s, (g.done s).res.err = s.res.err
  sub : ∀ s, (g.done s).res.sub = s.res.sub
  xidx : ∀ s, (g.done s).res.xidx = s.res.xidx
  nexch : ∀ s, (g.done s).res.nexch = s.res.nexch
  nframes : ∀ s, (g.done s).res.nframes = s.res.nframes
  st : ∀ s, (g.done s).res.st = s.res.st
  fault : ∀ s, (g.done s).res.fault = s.res.fault
  dsu : ∀ s, (g.done s).res.dsu = s.res.dsu

/-- Every stage of every request obeys the stage laws. -/
theorem stageLaws {o : BitVec 4} {p : Program} (h : programOf o = some p) (s : State) : ∀ g ∈ p.stages s, StageLaws g := by
  intro g hg
  cases o, p, h using programOf_elim with
  | readReg =>
    simp [readRegProgram] at hg; subst hg
    constructor <;> simp [xread, setValue] <;> intros <;> simp [*]
  | writeReg =>
    simp [writeRegProgram] at hg; subst hg
    constructor <;> simp [xwrite] <;> intros <;> simp [*]
  | modifyReg =>
    simp [modifyRegProgram] at hg; rcases hg with rfl | rfl
    · constructor <;> simp [xread, setValue, setWvalue] <;> intros <;> simp [*]
    · constructor <;> simp [xwrite] <;> intros <;> simp [*]
  | readConfig =>
    cases hb : s.params.batched <;> simp [readConfigProgram, readPhase, hb] at hg
    · rcases hg with rfl | rfl | rfl | rfl <;> constructor <;> simp [xread, setBundle, setCfg]
    · subst hg; constructor <;> simp [xbatch, setCfg]
  | writeConfig =>
    cases hb : s.params.batched <;> simp [writeConfigProgram, writePhase, hb] at hg
    · rcases hg with rfl | rfl | rfl | rfl <;> constructor <;> simp [xwrite] <;> intros <;> simp [*]
    · subst hg; constructor <;> simp [xbatch] <;> intros <;> simp [*]
  | modifyConfig =>
    cases hb : s.params.batched <;> simp [modifyConfigProgram, readPhase, writePhase, hb] at hg
    · rcases hg with rfl | rfl | rfl | rfl | rfl | rfl | rfl | rfl <;> constructor <;> simp [xread, xwrite, setBundle, setCfg, setWcfg] <;> intros <;> simp [*]
    · rcases hg with rfl | rfl <;> constructor <;> simp [xbatch, setCfg, setWcfg] <;> intros <;> simp [*]
  | clearFault =>
    simp [clearFaultProgram] at hg; rcases hg with rfl | rfl
    · constructor <;> simp [xread, setValue, setWvalue]
    · constructor <;> simp [xwrite] <;> intros <;> simp [*]
  | awaken =>
    simp only [awakenProgram] at hg
    split at hg
    · simp at hg
    · simp [powerStages] at hg; rcases hg with rfl | rfl <;> constructor <;> simp [setSleepLatch, setSleep] <;> intros <;> simp [*]
  | sleep =>
    simp only [sleepProgram] at hg
    split at hg
    · simp at hg
    · simp [powerStages] at hg; rcases hg with rfl | rfl <;> constructor <;> simp [setSleepLatch, setSleep] <;> intros <;> simp [*]

/-- The stages depend on the parameters and S alone. -/
theorem stages_ext {o : BitVec 4} {p : Program} (h : programOf o = some p) {s t : State} (h1 : t.params = s.params)
    (h2 : t.sleep = s.sleep) : p.stages t = p.stages s := by
  cases o, p, h using programOf_elim <;>
    simp [readRegProgram, writeRegProgram, modifyRegProgram, readConfigProgram, writeConfigProgram, modifyConfigProgram, clearFaultProgram, awakenProgram, sleepProgram, h1, h2]

/-- S changes in the last stage only. -/
theorem done_sleep {o : BitVec 4} {p : Program} (h : programOf o = some p) {s : State} {pre gs : List Stage} {g : Stage}
    (hg : p.stages s = pre ++ g :: gs) (hne : gs ≠ []) (t : State) : (g.done t).sleep = t.sleep := by
  have hm : g ∈ (p.stages s).dropLast := by
    rw [hg, List.dropLast_append_of_ne_nil (by simp)]
    cases gs with
    | nil => exact absurd rfl hne
    | cons a l => simp
  cases o, p, h using programOf_elim with
  | readReg =>
    simp [readRegProgram] at hm
  | writeReg =>
    simp [writeRegProgram] at hm
  | modifyReg =>
    simp [modifyRegProgram] at hm; subst hm; simp [xread, setValue, setWvalue]
  | readConfig =>
    cases hb : s.params.batched <;> simp [readConfigProgram, readPhase, hb] at hm
    rcases hm with rfl | rfl | rfl <;> simp [xread, setBundle]
  | writeConfig =>
    cases hb : s.params.batched <;> simp [writeConfigProgram, writePhase, hb] at hm
    rcases hm with rfl | rfl | rfl <;> simp [xwrite]
  | modifyConfig =>
    cases hb : s.params.batched <;> simp [modifyConfigProgram, readPhase, writePhase, hb] at hm
    · rcases hm with rfl | rfl | rfl | rfl | rfl | rfl | rfl <;> simp [xread, xwrite, setBundle, setCfg, setWcfg]
    · subst hm; simp [xbatch, setCfg, setWcfg]
  | clearFault =>
    simp [clearFaultProgram] at hm; subst hm; simp [xread, setValue, setWvalue]
  | awaken =>
    simp only [awakenProgram] at hm
    split at hm
    · simp at hm
    · simp [powerStages] at hm; subst hm; simp [setSleepLatch]
  | sleep =>
    simp only [sleepProgram] at hm
    split at hm
    · simp at hm
    · simp [powerStages] at hm; subst hm; simp [setSleepLatch]

/-- Between two events of a request. -/
structure Between (gs : List Stage) (s : State) : Prop where
  busy : s.phase = .busy
  quiet : s.outstanding = none
  valid : validate (latchHeader s.req) = none
  laws : ∀ g ∈ gs, StageLaws g
  point : ∃ p, programOf s.req.opc = some p ∧ (gs ≠ [] → ∃ pre, p.stages s = pre ++ gs ∧ s.k.toNat = pre.length)

/-- While an event is outstanding. -/
structure Waiting (g : Stage) (gs : List Stage) (s : State) : Prop where
  busy : s.phase = .busy
  out : s.outstanding = some (g.event s)
  valid : validate (latchHeader s.req) = none
  laws : ∀ x ∈ g :: gs, StageLaws x
  point : ∃ p, programOf s.req.opc = some p ∧ ∃ pre, p.stages s = pre ++ g :: gs ∧ s.k.toNat = pre.length + 1

/-- No request has more than 8 events (R23). -/
theorem stages_length {o : BitVec 4} {p : Program} (h : programOf o = some p) (s : State) : (p.stages s).length ≤ 8 := by
  cases o, p, h using programOf_elim with
  | readReg =>
    simp [readRegProgram]
  | writeReg =>
    simp [writeRegProgram]
  | modifyReg =>
    simp [modifyRegProgram]
  | readConfig =>
    cases hb : s.params.batched <;> simp [readConfigProgram, readPhase, hb]
  | writeConfig =>
    cases hb : s.params.batched <;> simp [writeConfigProgram, writePhase, hb]
  | modifyConfig =>
    cases hb : s.params.batched <;> simp [modifyConfigProgram, readPhase, writePhase, hb]
  | clearFault =>
    simp [clearFaultProgram]
  | awaken =>
    simp only [awakenProgram]; split <;> simp [powerStages]
  | sleep =>
    simp only [sleepProgram]; split <;> simp [powerStages]

/-- Issuing the next event. -/
theorem between_issue {g : Stage} {gs : List Stage} {s : State} (h : Between (g :: gs) s) :
    Waiting g gs (issue (g.event s) s) ∧ (issue (g.event s) s).k.toNat = s.k.toNat + 1 := by
  obtain ⟨p, hp, hx⟩ := h.point
  obtain ⟨pre, hs, hk⟩ := hx (by simp)
  have hL := stages_length hp s
  have hk1 : (issue (g.event s) s).k.toNat = s.k.toNat + 1 := by
    have : (issue (g.event s) s).k = s.k + 1#4 := by simp
    rw [this, BitVec.toNat_add]
    rw [hs] at hL; simp at hL
    have : s.k.toNat < 15 := by omega
    simp; omega
  have he : g.event (issue (g.event s) s) = g.event s := (h.laws g (by simp)).event_ext _ _ (by simp) (by simp) (by simp)
  refine ⟨⟨by simp [h.busy], by rw [he]; simp, by simpa using h.valid, h.laws, p, by simpa using hp, pre, ?_, ?_⟩, hk1⟩
  · rw [stages_ext hp (s := s) (by simp) (by simp)]; exact hs
  · rw [hk1, hk]

/-- What an unanswered event leaves as it was. -/
theorem take_keeps {e : Event} {s t : State} (h : awaitAnswer e s = .waiting t) :
    t.params = s.params ∧ t.sleep = s.sleep ∧ t.phase = s.phase ∧ t.k = s.k ∧ t.outstanding = s.outstanding ∧ t.req = s.req
      ∧ t.res = s.res ∧ t.history = s.history ∧ t.asleepAccess = s.asleepAccess ∧ t.sleepLatch = s.sleepLatch ∧ t.offers = s.offers := by
  rcases awaitAnswer_waiting h with rfl | rfl | rfl <;> simp

/-- An unanswered event leaves the block waiting for it. -/
theorem waiting_waits {g : Stage} {gs : List Stage} {s t : State} {e : Event} (h : Waiting g gs s) (hA : awaitAnswer e s = .waiting t) :
    Waiting g gs t := by
  obtain ⟨h1, h2, h3, h4, h5, h6, h7, -⟩ := take_keeps hA
  obtain ⟨p, hp, pre, hs, hk⟩ := h.point
  refine ⟨by rw [h3, h.busy], ?_, by rw [h6]; exact h.valid, h.laws, p, by rw [h6]; exact hp, pre, ?_, by rw [h4, hk]⟩
  · rw [h5, h.out, (h.laws g (by simp)).event_ext s t h1 h6 h7]
  · rw [stages_ext hp h1 h2]; exact hs

/-- What an answered event leaves as it was. -/
theorem answered_keeps {e : Event} {s t : State} (h : awaitAnswer e s = .answered t) :
    t.params = s.params ∧ t.sleep = s.sleep ∧ t.phase = s.phase ∧ t.k = s.k ∧ t.outstanding = none ∧ t.req = s.req
      ∧ t.history = s.history ∧ t.asleepAccess = s.asleepAccess ∧ t.sleepLatch = s.sleepLatch ∧ t.offers = s.offers := by
  rcases awaitAnswer_answered h with ⟨_, _, _, _, rfl⟩ | ⟨_, _, _, rfl⟩ | ⟨_, _, _, rfl⟩ <;> simp

/-- What a failed event leaves as it was. -/
theorem failed_keeps {e : Event} {s t : State} {x w} (h : awaitAnswer e s = .failed x w t) :
    t.params = s.params ∧ t.k = s.k ∧ t.outstanding = none ∧ t.req = s.req
      ∧ t.history = s.history ∧ t.asleepAccess = s.asleepAccess ∧ t.sleepLatch = s.sleepLatch ∧ t.offers = s.offers := by
  rcases awaitAnswer_failed h with ⟨_, _, _, _, _, rfl⟩ | ⟨_, _, _, _, _, rfl⟩ <;> simp

/-- An answered event leaves the block between two events, or at the end. -/
theorem waiting_answered {g : Stage} {gs : List Stage} {s t : State} {e : Event} (h : Waiting g gs s) (hA : awaitAnswer e s = .answered t) :
    Between gs (g.done t) := by
  obtain ⟨h1, h2, h3, h4, h5, h6, -⟩ := answered_keeps hA
  obtain ⟨p, hp, pre, hs, hk⟩ := h.point
  have L := h.laws g (by simp)
  refine ⟨by rw [L.phase, h3, h.busy], by rw [L.outstanding, h5], by rw [L.req, h6]; exact h.valid, fun x hx => h.laws x (by simp [hx]), p, by rw [L.req, h6]; exact hp, ?_⟩
  · intro hne
    refine ⟨pre ++ [g], ?_, ?_⟩
    · rw [stages_ext hp (s := s) (by rw [L.params, h1]) (by rw [done_sleep hp hs hne, h2]), hs]; simp
    · rw [L.k, h4, hk]; simp

/-- Where a run of a request can end. -/
def Rest (t : State) : Prop := (t.phase = .idle ∧ t.outstanding = none) ∨ ∃ g gs, Waiting g gs t

/-- General induction for runs and resumptions: Q holds of what a run ends in. -/
theorem run_induct {P : List Stage → State → Prop} {W : Stage → List Stage → State → Prop} {Q : State → Prop}
    (atEnd : ∀ s, Between [] s → P [] s → Q (complete .ok false s))
    (issues : ∀ g gs s, Between (g :: gs) s → P (g :: gs) s → W g gs (issue (g.event s) s))
    (waits : ∀ g gs s t, Waiting g gs s → W g gs s → awaitAnswer (g.event s) s = .waiting t → Q t)
    (fails : ∀ g gs s e w t, Waiting g gs s → W g gs s → awaitAnswer (g.event s) s = .failed e w t → Q (complete e w t))
    (goesOn : ∀ g gs s t, Waiting g gs s → W g gs s → awaitAnswer (g.event s) s = .answered t → P gs (g.done t)) :
    ∀ gs s, Between gs s → P gs s → Q (runStages gs s) := by
  intro gs
  induction gs with
  | nil => exact fun s hB hP => atEnd s hB hP
  | cons g gs ih =>
    intro s hB hP
    have hW := (between_issue hB).1
    have hW' := issues g gs s hB hP
    have he : g.event (issue (g.event s) s) = g.event s := (hB.laws g (by simp)).event_ext _ _ (by simp) (by simp) (by simp)
    rw [runStages]
    rw [← he]
    rw [he]
    cases hA : awaitAnswer (g.event s) (issue (g.event s) s) with
    | waiting t => exact waits g gs _ t hW hW' (he.symm ▸ hA)
    | failed e w t => exact fails g gs _ e w t hW hW' (he.symm ▸ hA)
    | answered t => exact ih _ (waiting_answered hW hA) (goesOn g gs _ t hW hW' (he.symm ▸ hA))

/-- An accepted request stands before its first event. -/
theorem between_start {r : Request} {p : Program} {s : State} (hv : validate r.header = none) (hp : programOf (headerOpc r.header) = some p) :
    Between (p.stages (latch r s)) (p.start (latch r s)) := by
  have hst : (p.start (latch r s)).phase = .busy ∧ (p.start (latch r s)).outstanding = none ∧ (p.start (latch r s)).req = latchOf r
     ∧ (p.start (latch r s)).params = s.params ∧ (p.start (latch r s)).sleep = s.sleep ∧ (p.start (latch r s)).k = 0#4 := by
    generalize headerOpc r.header = o at hp
    cases o, p, hp using programOf_elim <;>
      simp [readRegProgram, writeRegProgram, modifyRegProgram, readConfigProgram, writeConfigProgram, modifyConfigProgram, clearFaultProgram, awakenProgram, sleepProgram, setWvalue, setWcfg]
  obtain ⟨h1, h2, h3, h4, h5, h6⟩ := hst
  refine ⟨h1, h2, by rw [h3, latchHeader_of_valid hv]; exact hv, stageLaws hp _, p, by rw [h3]; exact hp, fun _ => ⟨[], ?_, ?_⟩⟩
  · rw [stages_ext hp (s := latch r s) (by simp [h4]) (by simp [h5])]; rfl
  · rw [h6]; rfl

/-- A BUSY block that meets the sequencer's invariant waits for an event of its request, and how it goes on. -/
theorem waiting_of_inv {s : State} (hi : SequencerInv s) (hb : s.phase = .busy) : ∃ g gs, Waiting g gs s ∧
   ∀ p, programOf s.req.opc = some p → resume p s = match awaitAnswer (g.event s) s with
     | .waiting t => t
     | .failed e w t => complete e w t
     | .answered t => runStages gs (g.done t) := by
  obtain ⟨p, g, hp, hk, hg, ho⟩ := hi.busyStage hb
  have hg' := List.getElem?_eq_some_iff.1 hg
  obtain ⟨hl, hg'⟩ := hg'
  have hd : p.stages s = (p.stages s).take (s.k.toNat - 1) ++ g :: (p.stages s).drop s.k.toNat := by
    have h3 : (p.stages s).drop (s.k.toNat - 1) = g :: (p.stages s).drop s.k.toNat := by
      rw [← hg', List.drop_eq_getElem_cons hl]
      congr 2; omega
    rw [← h3, List.take_append_drop]
  refine ⟨g, (p.stages s).drop s.k.toNat, ⟨hb, ho, hi.busyValid hb, fun x hx => stageLaws hp s x (by rw [hd]; exact List.mem_append_right _ hx), p, hp, _, hd, ?_⟩, ?_⟩
  · rw [List.length_take]; omega
  · intro q hq
    rw [hp] at hq; cases hq
    simp only [resume, ho]
    cases hA : awaitAnswer (g.event s) s with
    | waiting t => rfl
    | failed e w t => rfl
    | answered t =>
      have h2 : (p.stages s).drop (s.k.toNat - 1) = g :: (p.stages s).drop s.k.toNat := by
        rw [← hg', List.drop_eq_getElem_cons hl]
        congr 2; omega
      simp only [h2]

/-- Where a run can end, the sequencer's invariant holds. -/
theorem rest_inv {t : State} (h : Rest t) : SequencerInv t := by
  rcases h with ⟨h1, h2⟩ | ⟨g, gs, h⟩
  · exact ⟨fun _ => h2, fun h => (nomatch h1.symm.trans h), fun h => (nomatch h1.symm.trans h)⟩
  · obtain ⟨p, hp, pre, hs, hk⟩ := h.point
    refine ⟨fun h' => (nomatch h'.symm.trans h.busy), fun _ => h.valid, fun _ => ⟨p, g, hp, by omega, ?_, h.out⟩⟩
    rw [hs, hk]; simp

/-- The general form of an invariant proof about a step. -/
theorem step_induct {P : List Stage → State → Prop} {W : Stage → List Stage → State → Prop} {Q : State → Prop} {s t : State}
    (hi : SequencerInv s) (h : step s = .next t)
    (stays : s.phase = .idle → Q s)
    (refuses : ∀ r more sub, s.phase = .idle → s.offers = r :: more → validate r.header = some sub → Q (refuse sub s))
    (starts : ∀ r more p, s.phase = .idle → s.offers = r :: more → validate r.header = none → programOf (headerOpc r.header) = some p →
      P (p.stages (latch r s)) (p.start (latch r s)))
    (resumes : ∀ g gs, s.phase = .busy → Waiting g gs s → W g gs s)
    (atEnd : ∀ s, Between [] s → P [] s → Q (complete .ok false s))
    (issues : ∀ g gs s, Between (g :: gs) s → P (g :: gs) s → W g gs (issue (g.event s) s))
    (waits : ∀ g gs s t, Waiting g gs s → W g gs s → awaitAnswer (g.event s) s = .waiting t → Q t)
    (fails : ∀ g gs s e w t, Waiting g gs s → W g gs s → awaitAnswer (g.event s) s = .failed e w t → Q (complete e w t))
    (goesOn : ∀ g gs s t, Waiting g gs s → W g gs s → awaitAnswer (g.event s) s = .answered t → P gs (g.done t)) : Q t := by
  rcases step_cases h with ⟨hs, -, rfl⟩ | ⟨hs, r, more, sub, ho, hv, rfl⟩ | ⟨hs, r, more, p, ho, hv, hp, rfl⟩ | ⟨hs, p, hp, rfl⟩
  · exact stays hs
  · exact refuses r more sub hs ho hv
  · exact run_induct atEnd issues waits fails goesOn _ _ (between_start hv hp) (starts r more p hs ho hv hp)
  · obtain ⟨g, gs, hW, hr⟩ := waiting_of_inv hi hs
    have hw := resumes g gs hs hW
    rw [hr p hp]
    cases hA : awaitAnswer (g.event s) s with
    | waiting t => exact waits g gs s t hW hw hA
    | failed e w t => exact fails g gs s e w t hW hw hA
    | answered t => exact run_induct atEnd issues waits fails goesOn _ _ (waiting_answered hW hA) (goesOn g gs s t hW hw hA)

end Sys2Proof.Machine
end

