-- ==== Sys2Proof/Tests/Slice0.lean ====
section
/-!
SUPPORT. Tests. Expected values come from spec/95_test_vectors.md (the vector is named) or are written out from the encodings
of spec/30_encoding.md. Then, for every statement with hypotheses, a theorem with values that meet them.
-/

namespace Sys2Proof.Tests

open Sys2Proof Sys2Proof.Machine

/-! ### Well-formedness: a term that each check refuses, and the boundary it accepts (R112, R121) -/

theorem test_wf_readReg : (Instr.readReg 0x06#5).wf = false ∧ (Instr.readReg 0x05#5).wf = true := by decide
theorem test_wf_writeReg : (Instr.writeReg 0x06#5 0x00#8).wf = false ∧ (Instr.writeReg 0x01#5 0x00#8).wf = false
    ∧ (Instr.writeReg 0x02#5 0x00#8).wf = true ∧ (Instr.writeReg 0x05#5 0x00#8).wf = true := by decide
theorem test_wf_modifyReg : (Instr.modifyReg 0x06#5 (.merge 0x00#8 0x00#8)).wf = false
    ∧ (Instr.modifyReg 0x01#5 (.merge 0x00#8 0x00#8)).wf = false
    ∧ (Instr.modifyReg 0x02#5 (.merge 0x00#8 0x00#8)).wf = true := by decide
theorem test_wf_setBits : (Instr.setBits 0x01#5 0x80#8).wf = false ∧ (Instr.setBits 0x04#5 0x80#8).wf = true := by decide
theorem test_wf_clrBits : (Instr.clrBits 0x06#5 0xFF#8).wf = false ∧ (Instr.clrBits 0x02#5 0xFF#8).wf = true := by decide
theorem test_wf_wireRead : (Instr.wireRead 0x06#5).wf = false ∧ (Instr.wireRead 0x00#5).wf = true := by decide
theorem test_wf_wireWrite : (Instr.wireWrite 0x01#5 0x00#8).wf = false ∧ (Instr.wireWrite 0x02#5 0x00#8).wf = true := by
  decide

/-! ### Decoding: words written out bit by bit, OPC 15:12, RSV 11:5, ADDR 4:0 (R110, R111, R119) -/

/-- A record with a header and operand fields DATA, MASK, CFG, CFG_MASK. -/
def record (h : Header) (data mask : Byte) (cfg cfgMask : Cfg) : Code :=
  .req { header := h, data := data, mask := mask, cfg := cfg, cfgMask := cfgMask, regFn := none, cfgFn := none }

/-- The record of a header alone. -/
def bare (h : Header) : Code := record h 0x00#8 0x00#8 0x00000000#32 0x00000000#32

theorem test_decode_readReg : decode (bare 0b0001000000000101#16) = .ok (.readReg 0x05#5) := by decide
theorem test_decode_writeReg :
    decode (record 0b0010000000000010#16 0x51#8 0xFF#8 0xFFFFFFFF#32 0x0#32) = .ok (.writeReg 0x02#5 0x51#8) := by decide
theorem test_decode_modifyReg :
    decode (record 0b0011000000000100#16 0x80#8 0x81#8 0x0#32 0x0#32) = .ok (.modifyReg 0x04#5 (.merge 0x81#8 0x80#8)) := by
  decide
theorem test_decode_readConfig : decode (bare 0b0100000000000000#16) = .ok .readConfig := by decide
theorem test_decode_writeConfig :
    decode (record 0b0101000000000000#16 0x00#8 0x00#8 0x08300451#32 0x0#32) = .ok (.writeConfig 0x08300451#32) := by decide
theorem test_decode_modifyConfig :
    decode (record 0b0110000000000000#16 0x00#8 0x00#8 0x0C000000#32 0x0C000001#32)
      = .ok (.modifyConfig (.merge 0x0C000001#32 0x0C000000#32)) := by decide
theorem test_decode_clearFault : decode (bare 0b0111000000000000#16) = .ok .clearFault := by decide
theorem test_decode_awaken : decode (bare 0b1000000000000000#16) = .ok .awaken := by decide
theorem test_decode_sleep : decode (bare 0b1001000000000000#16) = .ok .sleep := by decide
theorem test_decode_reserved :
    decode (bare 0b0000000000000000#16) = .ok (.reservedOpc0 0x000#12)
      ∧ decode (bare 0b1010000000000000#16) = .ok (.reservedOpcA 0x000#12)
      ∧ decode (bare 0b1011111111111111#16) = .ok (.reservedOpcB 0xFFF#12)
      ∧ decode (bare 0b1100000000000001#16) = .ok (.reservedOpcC 0x001#12)
      ∧ decode (bare 0b1101100000000000#16) = .ok (.reservedOpcD 0x800#12)
      ∧ decode (bare 0b1110000000100000#16) = .ok (.reservedOpcE 0x020#12)
      ∧ decode (bare 0b1111000011111111#16) = .ok (.reservedOpcF 0x0FF#12) := by decide

/-- A pseudo-instruction's words are those of the request it stands for, and decode to that request. -/
def spells (i : Instr) (c : Code) (j : Instr) : Bool :=
  decide (encode Config.defaultParams i = c) && decide (decode c = .ok j)

theorem test_decode_pseudo_reads :
    spells .readFault (bare 0b0001000000000000#16) (.readReg 0x00#5)
      ∧ spells .readDiag (bare 0b0001000000000001#16) (.readReg 0x01#5)
      ∧ spells .readIc1 (bare 0b0001000000000010#16) (.readReg 0x02#5)
      ∧ spells .readIc2 (bare 0b0001000000000011#16) (.readReg 0x03#5)
      ∧ spells .readIc3 (bare 0b0001000000000100#16) (.readReg 0x04#5)
      ∧ spells .readIc4 (bare 0b0001000000000101#16) (.readReg 0x05#5) := by decide
theorem test_decode_pseudo_writes :
    spells (.writeIc1 0x51#8) (record 0b0010000000000010#16 0x51#8 0#8 0#32 0#32) (.writeReg 0x02#5 0x51#8)
      ∧ spells (.writeIc2 0x04#8) (record 0b0010000000000011#16 0x04#8 0#8 0#32 0#32) (.writeReg 0x03#5 0x04#8)
      ∧ spells (.writeIc3 0x30#8) (record 0b0010000000000100#16 0x30#8 0#8 0#32 0#32) (.writeReg 0x04#5 0x30#8)
      ∧ spells (.writeIc4 0x08#8) (record 0b0010000000000101#16 0x08#8 0#8 0#32 0#32) (.writeReg 0x05#5 0x08#8) := by
  decide
theorem test_decode_pseudo_modifies :
    spells (.modifyIc1 0x03#8 0x02#8) (record 0b0011000000000010#16 0x02#8 0x03#8 0#32 0#32)
        (.modifyReg 0x02#5 (.merge 0x03#8 0x02#8))
      ∧ spells (.modifyIc2 0x03#8 0x01#8) (record 0b0011000000000011#16 0x01#8 0x03#8 0#32 0#32)
        (.modifyReg 0x03#5 (.merge 0x03#8 0x01#8))
      ∧ spells (.modifyIc3 0x70#8 0x60#8) (record 0b0011000000000100#16 0x60#8 0x70#8 0#32 0#32)
        (.modifyReg 0x04#5 (.merge 0x70#8 0x60#8))
      ∧ spells (.modifyIc4 0x0C#8 0x08#8) (record 0b0011000000000101#16 0x08#8 0x0C#8 0#32 0#32)
        (.modifyReg 0x05#5 (.merge 0x0C#8 0x08#8))
      ∧ spells (.setBits 0x04#5 0x80#8) (record 0b0011000000000100#16 0x80#8 0x80#8 0#32 0#32)
        (.modifyReg 0x04#5 (.merge 0x80#8 0x80#8))
      ∧ spells (.clrBits 0x02#5 0xFF#8) (record 0b0011000000000010#16 0x00#8 0xFF#8 0#32 0#32)
        (.modifyReg 0x02#5 (.merge 0xFF#8 0x00#8)) := by decide
theorem test_decode_pseudo_defaults :
    spells .writeDefaults (record 0b0101000000000000#16 0#8 0#8 0x08300451#32 0#32) (.writeConfig 0x08300451#32) := by
  decide

/-- The wire forms: `0 1 a4..a0 0 | 0..0` and `0 0 a4..a0 0 | d7..d0` (R102). -/
theorem test_decode_wire :
    decode (.frame 0b0100001000000000#16) = .ok (.wireRead 0x01#5)
      ∧ decode (.frame 0b0000101010001000#16) = .ok (.wireWrite 0x05#5 0x88#8)
      ∧ decode (.frame 0b1100001000000000#16) = .error .frameReservedBit
      ∧ decode (.frame 0b0100001100000000#16) = .error .frameReservedBit
      ∧ decode (.frame 0b0100001000000001#16) = .error .frameDummyByte := by decide

/-- The headers of spec/95_test_vectors.md section 2.5 with their sub-codes. -/
theorem test_validate :
    validate 0x0000#16 = some .reservedOpc ∧ validate 0xF0FF#16 = some .reservedOpc
      ∧ validate 0x1020#16 = some .reservedBits ∧ validate 0x2FE2#16 = some .reservedBits
      ∧ validate 0x101F#16 = some .addrRange ∧ validate 0x2006#16 = some .addrRange
      ∧ validate 0x2001#16 = some .readOnly ∧ validate 0x3001#16 = some .readOnly
      ∧ validate 0x3007#16 = some .addrRange ∧ validate 0x9010#16 = some .reservedBits
      ∧ validate 0x3005#16 = none := by decide

/-- The host's two entry points: the request is decoded, and is the first to run after reset. -/
theorem test_decodeTableWord :
    decodeTableWord 16 0x7000 = some .clearFault ∧ decodeTableWord 16 0x7004 = none ∧ decodeTableWord 8 0x70 = none := by
  decide
theorem test_withFetchWord :
    step (State.reset.withFetchWord 16 0x2000) = .next (misused .readOnly (State.reset.withFetchWord 16 0x2000)) := rfl

/-! ### Pure functions (V1 to V6 and section 2.4) -/

theorem test_command_bytes :
    cmdWrite 0x02 = 0x04#8 ∧ cmdRead 0x05 = 0x4A#8 ∧ cmdWrite 0x22 = 0x04#8 ∧ cmdRead 0x1F = 0x7E#8 ∧ cmdRead 0x100 = 0x40#8
      ∧ frameRead 0x03 = [0x46#8, 0x00#8] ∧ frameWrite 0x04 0xB0#8 = [0x08#8, 0xB0#8] := by decide
theorem test_decode_status :
    decodeStatus 0xC0#8 = none ∧ decodeStatus 0xC5#8 = some 0x05#6 ∧ decodeStatus 0x00#8 = some 0x00#6
      ∧ decodeStatus 0xBF#8 = some 0x3F#6 ∧ decodeStatus 0x40#8 = some 0x00#6 := by decide
theorem test_aggregate :
    aggregate (statusSlots [0xC0#8, 0xC0#8, 0xC1#8, 0xC4#8]) 4#4 = some 0x01#6
      ∧ aggregate (statusSlots [0xC0#8, 0x00#8]) 2#4 = some 0x00#6 ∧ aggregate (statusSlots []) 0#4 = none := by decide
theorem test_get_set :
    (findField Config.defaultLayout .ic1 .sr).map (getField 0x51#8) = some 0x04#8
      ∧ (findField Config.defaultLayout .ic1 .sr).map (setField 0x51#8 · 0x09#8) = some 0x45#8
      ∧ (findField Config.defaultLayout .ic4 .itripLvl).map (setField 0x88#8 · 0x00#8) = some 0x80#8 := by decide
theorem test_codecs :
    fromByteFault 0xC5#8 = ⟨true, false, true, false, false, false, true, true⟩
      ∧ fromByteIc1 0x51#8 = ⟨0b01#2, 0b100#3, false, 0b01#2⟩
      ∧ fromByteIc2 0xA5#8 = ⟨0b01#2, 0b01#2, false, true, false, true⟩
      ∧ fromByteIc3 0xB0#8 = ⟨false, false, false, false, 0b011#3, true⟩
      ∧ fromByteIc4 0x88#8 = ⟨0b00#2, 0b10#2, false, false, false, true⟩ := by decide
theorem test_codec_diag : fromByteDiag 0x80#8 = ⟨false, false, false, false, false, false, false, true⟩
    ∧ (fromByteDiag 0x08#8).ocpH1 = true ∧ toByteDiag (fromByteDiag 0x0F#8) = 0x0F#8 := by decide
theorem test_enumerations :
    meaningUnder Config.defaultLayout .ic1 .sr 0x51#8 = some (.riseTime 108)
      ∧ meaningUnder Config.defaultLayout .ic1 .toff 0x51#8 = some (.offTime 40)
      ∧ meaningUnder Config.defaultLayout .ic1 .mode 0x51#8 = some (.bridge .pwm)
      ∧ meaningUnder Config.defaultLayout .ic2 .ocpTretry 0x04#8 = some (.retryTime 1000)
      ∧ meaningUnder Config.defaultLayout .ic3 .lock 0x30#8 = some .unlock
      ∧ meaningUnder Config.defaultLayout .ic3 .lock 0x60#8 = some .lock
      ∧ meaningUnder Config.defaultLayout .ic3 .lock 0x50#8 = some (.noEffect 0b101#8)
      ∧ meaningUnder Config.defaultLayout .ic4 .itripLvl 0x08#8 = some (.tripLevel 65) := by decide
theorem test_config_pack :
    configPack 0x51#8 0x04#8 0x30#8 0x08#8 = 0x08300451#32
      ∧ configUnpack 0x0C300450#32 = (0x50#8, 0x04#8, 0x30#8, 0x0C#8)
      ∧ defaultConfig Config.defaultParams = 0x08300451#32 := by decide

/-- Another LAYOUT (V14f): CLR_FLT is bit 0 of IC3, bit 7 is reserved, and MODE's codes stand in another order. -/
def otherLayout : Layout :=
  Config.layoutFault ++ Config.layoutDiag
    ++ [⟨.ic1, .mode, 7, 6, .enum Config.tableMode.reverse⟩, ⟨.ic1, .spiIn, 5, 5, .flag⟩,
        ⟨.ic1, .sr, 4, 2, .enum Config.tableSr⟩, ⟨.ic1, .toff, 1, 0, .enum Config.tableToff⟩]
    ++ Config.layoutIc2
    ++ [⟨.ic3, .rsvd, 7, 7, .reserved⟩, ⟨.ic3, .lock, 6, 4, .enum Config.tableLock⟩, ⟨.ic3, .rsvd, 3, 3, .reserved⟩,
        ⟨.ic3, .other 0, 2, 1, .enum [.other 0, .other 1, .other 2, .other 3]⟩, ⟨.ic3, .clrFlt, 0, 0, .flag⟩]
    ++ Config.layoutIc4

/-- The parameters of an instance with that LAYOUT: PWM has the code 10, so IC1 defaults to 0x91. -/
def otherParams : Params :=
  { Config.defaultParams with hasSleepPin := false, clrFltBit := 0, defaultIc1 := 0x91#8, layout := otherLayout }

theorem test_params_other_layout : paramsOk otherParams = true := by decide
/-- R191: a default byte of another meaning. -/
theorem test_params_default_meaning : paramsOk { Config.defaultParams with defaultIc1 := 0x50#8 } = false := by decide
/-- R44: a clear-fault bit that is not CLR_FLT. -/
theorem test_params_clear_fault_bit : paramsOk { Config.defaultParams with clrFltBit := 0 } = false := by decide
/-- R39: a flag of two bits. -/
theorem test_row_wide_flag : rowOk ⟨.ic3, .enIn1, 1, 0, .flag⟩ = false := by decide
/-- R46, R170: a MODE of three bits has codes without a meaning. -/
theorem test_row_wide_mode : rowOk ⟨.ic1, .mode, 2, 0, .enum Config.tableMode⟩ = false := by decide
/-- R39: two rows with one bit in both. -/
theorem test_row_overlap :
    registerCovered (⟨.ic1, .other 0, 0, 0, .flag⟩ :: Config.layoutIc1) .ic1 = false := by decide

/-! ### Reset (R52) -/

theorem test_reset :
    State.reset.sleep = .asleep ∧ State.reset.sleepLatch = some .low ∧ State.reset.phase = .idle
      ∧ (State.resetOf { Config.defaultParams with hasSleepPin := false } (by decide)).sleep = .awake := by decide

/-! ### One request each -/

/-- An instance without a sleep pin, after reset, with answers of the transport laid out. -/
def plain (rs : List BusReply) : State :=
  { State.resetOf { Config.defaultParams with hasSleepPin := false } (by decide) with transport := rs }

/-- The same, batched. -/
def batch (rs : List BusReply) : State :=
  { State.resetOf { Config.defaultParams with hasSleepPin := false, batched := true } (by decide) with transport := rs }

/-- An instance with a sleep pin in a power state, with answers of the pin and the delay service laid out. -/
def powered (x : SleepState) (l : PinLevel) (ps : List PinReply) (ds : List DelayReply) : State :=
  { State.reset with sleep := x, sleepLatch := some l, sleepPin := ps, delay := ds }

/-- The answer to a discrete exchange: status byte and contents byte. -/
def answer (status contents : Byte) : BusReply := .ok #v[status, contents, 0, 0, 0, 0, 0, 0]

/-- The result record a request leaves. -/
def resultOf : Outcome → Option Result
  | .next t => some t.res
  | .fault _ => none
  | .refused _ => none

/-- The events a request leaves in an empty history. -/
def eventsOf : Outcome → List Event
  | .next t => t.history
  | .fault _ => []
  | .refused _ => []

/-- The power state and the level last driven. -/
def powerOf : Outcome → Option (SleepState × Option PinLevel)
  | .next t => some (t.sleep, t.sleepLatch)
  | .fault _ => none
  | .refused _ => none

/-- V7a. -/
theorem test_readReg :
    resultOf (exec (.readReg 0x00#5) (plain [answer 0xC0#8 0x01#8]))
      = some { Result.cleared with value := 0x01#8, st := statusSlots [0xC0#8], nexch := 1#4, nframes := 1#4 } := by decide
/-- V7h: the exchange is issued while asleep, and marked. -/
theorem test_readReg_asleep :
    (match exec (.readReg 0x00#5) { State.reset with transport := [answer 0xC0#8 0x00#8] } with
      | .next t => decide (t.asleepAccess = true ∧ t.sleep = .asleep ∧ t.history = [.exchange [0x40#8, 0x00#8]])
      | .fault _ => false
      | .refused _ => false) = true := by decide
/-- V7b, as READ_FAULT. -/
theorem test_readFault :
    resultOf (exec .readFault (plain [answer 0xC5#8 0x01#8]))
      = some { Result.cleared with value := 0x01#8, st := statusSlots [0xC5#8], nexch := 1#4, nframes := 1#4,
                                   fault := some 0x05#6 } := by decide
/-- V7c. -/
theorem test_readDiag : eventsOf (exec .readDiag (plain [answer 0xC0#8 0x80#8])) = [.exchange [0x42#8, 0x00#8]] := by decide
/-- V7d. -/
theorem test_readIc1 : eventsOf (exec .readIc1 (plain [answer 0xC0#8 0x51#8])) = [.exchange [0x44#8, 0x00#8]] := by decide
/-- V7g. -/
theorem test_readIc2 :
    resultOf (exec .readIc2 (plain [.err])) = some { Result.cleared with err := .transport } := by decide
/-- V7f. -/
theorem test_readIc3 :
    resultOf (exec .readIc3 (plain [answer 0xFF#8 0x30#8]))
      = some { Result.cleared with value := 0x30#8, st := statusSlots [0xFF#8], nexch := 1#4, nframes := 1#4,
                                   fault := some 0x3F#6 } := by decide
/-- V7e. -/
theorem test_readIc4 :
    resultOf (exec .readIc4 (plain [answer 0x00#8 0xFF#8]))
      = some { Result.cleared with value := 0xFF#8, st := statusSlots [0x00#8], nexch := 1#4, nframes := 1#4,
                                   fault := some 0x00#6 } := by decide

/-- V8e: MASK and CFG of the record are ignored. -/
theorem test_writeReg :
    eventsOf (step { plain [answer 0xC0#8 0x00#8] with
      offers := [⟨0x2002#16, 0x51#8, 0xFF#8, 0xFFFFFFFF#32, 0#32, none, none⟩] }) = [.exchange [0x04#8, 0x51#8]] := by decide
/-- V8a. -/
theorem test_writeIc1 :
    resultOf (exec (.writeIc1 0x51#8) (plain [answer 0xC0#8 0xAA#8]))
      = some { Result.cleared with wvalue := 0x51#8, st := statusSlots [0xC0#8], nexch := 1#4, nframes := 1#4 } := by decide
/-- R231: the frame. -/
theorem test_writeIc2 : eventsOf (exec (.writeIc2 0x05#8) (plain [answer 0xC0#8 0x00#8])) = [.exchange [0x06#8, 0x05#8]] := by
  decide
/-- V8d. -/
theorem test_writeIc3 :
    resultOf (exec (.writeIc3 0x30#8) (plain [.err]))
      = some { Result.cleared with wvalue := 0x30#8, err := .transport, dsu := true } := by decide
/-- V8b. -/
theorem test_writeIc4 :
    resultOf (exec (.writeIc4 0xFF#8) (plain [answer 0xC8#8 0x00#8]))
      = some { Result.cleared with wvalue := 0xFF#8, st := statusSlots [0xC8#8], nexch := 1#4, nframes := 1#4,
                                   fault := some 0x08#6 } := by decide

/-- V9h. -/
theorem test_modifyReg :
    resultOf (exec (.modifyReg 0x03#5 (.merge 0x03#8 0x01#8)) (plain [answer 0xC4#8 0x04#8, .err]))
      = some { Result.cleared with err := .transport, xidx := 1#4, nexch := 1#4, nframes := 1#4, st := statusSlots [0xC4#8],
                                   value := 0x04#8, wvalue := 0x05#8, fault := some 0x04#6, dsu := true } := by decide
/-- A transformation that is no mask-and-data form: increment (R114). -/
theorem test_modifyReg_table :
    eventsOf (exec (.modifyReg 0x02#5 (.table ⟨[(0x51#8, 0x52#8)], 0x00#8⟩))
        (plain [answer 0xC0#8 0x51#8, answer 0xC0#8 0x00#8]))
      = [.exchange [0x44#8, 0x00#8], .exchange [0x04#8, 0x52#8]] := by decide
/-- V9a. -/
theorem test_modifyIc1 :
    eventsOf (exec (.modifyIc1 0x03#8 0x00#8) (plain [answer 0xC0#8 0x51#8, answer 0xC0#8 0x00#8]))
      = [.exchange [0x44#8, 0x00#8], .exchange [0x04#8, 0x50#8]] := by decide
/-- V9g. -/
theorem test_modifyIc2 :
    resultOf (exec (.modifyIc2 0x03#8 0x01#8) (plain [.err])) = some { Result.cleared with err := .transport } := by decide
/-- R270: the frames. -/
theorem test_modifyIc3 :
    eventsOf (exec (.modifyIc3 0x70#8 0x60#8) (plain [answer 0xC0#8 0x30#8, answer 0xC0#8 0x00#8]))
      = [.exchange [0x48#8, 0x00#8], .exchange [0x08#8, 0x60#8]] := by decide
/-- V9d: the reserved bit is kept. -/
theorem test_modifyIc4 :
    eventsOf (exec (.modifyIc4 0x0C#8 0x0C#8) (plain [answer 0xC0#8 0x88#8, answer 0xC0#8 0x00#8]))
      = [.exchange [0x4A#8, 0x00#8], .exchange [0x0A#8, 0x8C#8]] := by decide
/-- V9c. -/
theorem test_setBits :
    eventsOf (exec (.setBits 0x04#5 0x80#8) (plain [answer 0xC0#8 0x30#8, answer 0xC0#8 0x00#8]))
      = [.exchange [0x48#8, 0x00#8], .exchange [0x08#8, 0xB0#8]] := by decide
/-- V9i. -/
theorem test_clrBits :
    eventsOf (exec (.clrBits 0x02#5 0xFF#8) (plain [answer 0xC0#8 0x51#8, answer 0xC0#8 0x00#8]))
      = [.exchange [0x44#8, 0x00#8], .exchange [0x04#8, 0x00#8]] := by decide

/-- V10c. -/
theorem test_readConfig_discrete :
    resultOf (exec .readConfig
        (plain [answer 0xC0#8 0x51#8, answer 0xC4#8 0x04#8, answer 0xC0#8 0x30#8, answer 0xC1#8 0x08#8]))
      = some { Result.cleared with cfg := 0x08300451#32, st := statusSlots [0xC0#8, 0xC4#8, 0xC0#8, 0xC1#8], nexch := 4#4,
                                   nframes := 4#4, fault := some 0x04#6 } := by decide
/-- V10b. -/
theorem test_readConfig_batched :
    resultOf (exec .readConfig (batch [.ok #v[0xC0#8, 0x51#8, 0xC0#8, 0x04#8, 0xC0#8, 0x30#8, 0xC0#8, 0x08#8]]))
      = some { Result.cleared with cfg := 0x08300451#32, st := statusSlots [0xC0#8, 0xC0#8, 0xC0#8, 0xC0#8], nexch := 1#4,
                                   nframes := 4#4 } := by decide
/-- V11c. -/
theorem test_writeConfig_discrete :
    resultOf (exec (.writeConfig 0x08300451#32) (plain [answer 0xC0#8 0x00#8, .err]))
      = some { Result.cleared with err := .transport, xidx := 1#4, nexch := 1#4, nframes := 1#4, st := statusSlots [0xC0#8],
                                   wcfg := 0x08300451#32, dsu := true } := by decide
/-- V12a. -/
theorem test_writeConfig_batched :
    eventsOf (exec (.writeConfig 0x08300451#32)
        (batch [.ok #v[0xC0#8, 0x00#8, 0xC0#8, 0x00#8, 0xC1#8, 0x00#8, 0xC0#8, 0x00#8]]))
      = [.exchange [0x04#8, 0x51#8, 0x06#8, 0x04#8, 0x08#8, 0x30#8, 0x0A#8, 0x08#8]] := by decide
/-- P2, step 1. -/
theorem test_writeDefaults :
    resultOf (exec .writeDefaults (batch [.ok #v[0xC0#8, 0x00#8, 0xC0#8, 0x00#8, 0xC1#8, 0x00#8, 0xC0#8, 0x00#8]]))
      = some { Result.cleared with wcfg := 0x08300451#32, st := statusSlots [0xC0#8, 0xC0#8, 0xC1#8, 0xC0#8], nexch := 1#4,
                                   nframes := 4#4, fault := some 0x01#6 } := by decide
set_option maxRecDepth 4000 in
/-- V13d. -/
theorem test_modifyConfig_discrete :
    resultOf (exec (.modifyConfig (.merge 0x0C000000#32 0x0C000000#32))
        (plain [answer 0xC0#8 0x51#8, answer 0xC0#8 0x04#8, answer 0xC0#8 0x30#8, answer 0xC4#8 0x08#8, answer 0xC0#8 0x00#8,
          answer 0xC0#8 0x00#8, answer 0xC0#8 0x00#8, answer 0xC0#8 0x00#8]))
      = some { Result.cleared with cfg := 0x08300451#32, wcfg := 0x0C300451#32, nexch := 8#4, nframes := 8#4,
                                   st := statusSlots [0xC0#8, 0xC0#8, 0xC0#8, 0xC4#8, 0xC0#8, 0xC0#8, 0xC0#8, 0xC0#8],
                                   fault := some 0x04#6 } := by decide
/-- V13g. -/
theorem test_modifyConfig_batched :
    resultOf (exec (.modifyConfig (.merge 0x00000003#32 0x00000000#32))
        (batch [.ok #v[0xC0#8, 0x51#8, 0xC0#8, 0x04#8, 0xC0#8, 0x30#8, 0xC0#8, 0x08#8], .err]))
      = some { Result.cleared with err := .transport, xidx := 1#4, nexch := 1#4, nframes := 4#4,
                                   st := statusSlots [0xC0#8, 0xC0#8, 0xC0#8, 0xC0#8], cfg := 0x08300451#32,
                                   wcfg := 0x08300450#32, dsu := true } := by decide

/-- V14a. -/
theorem test_clearFault :
    resultOf (exec .clearFault (plain [answer 0xC4#8 0x30#8, answer 0xC0#8 0x00#8]))
      = some { Result.cleared with value := 0x30#8, wvalue := 0xB0#8, st := statusSlots [0xC4#8, 0xC0#8], nexch := 2#4,
                                   nframes := 2#4, fault := some 0x04#6 } := by decide
/-- V14f: another clear-fault bit. -/
theorem test_clearFault_bit0 :
    eventsOf (exec .clearFault
        { State.resetOf otherParams test_params_other_layout with
          transport := [answer 0xC0#8 0x30#8, answer 0xC0#8 0x00#8] })
      = [.exchange [0x48#8, 0x00#8], .exchange [0x08#8, 0x31#8]] := by decide

/-- V17a. -/
theorem test_awaken :
    powerOf (exec .awaken (powered .asleep .low [.ok] [.done])) = some (.awake, some .high)
      ∧ eventsOf (exec .awaken (powered .asleep .low [.ok] [.done])) = [.pinSet .high, .delay 1500] := by decide
/-- V17d. -/
theorem test_awaken_pin_error :
    powerOf (exec .awaken (powered .asleep .low [.err] [])) = some (.unknown, some .low)
      ∧ resultOf (exec .awaken (powered .asleep .low [.err] [])) = some { Result.cleared with err := .pin } := by decide
/-- V17e. -/
theorem test_sleep :
    powerOf (exec .sleep (powered .awake .high [.ok] [.done])) = some (.asleep, some .low)
      ∧ eventsOf (exec .sleep (powered .awake .high [.ok] [.done])) = [.pinSet .low, .delay 50] := by decide
/-- V18. -/
theorem test_sleep_without_pin :
    powerOf (exec .sleep (plain [])) = some (.awake, none) ∧ eventsOf (exec .sleep (plain [])) = [] := by decide

/-- Section 2.5: the reserved operation codes. -/
theorem test_reserved :
    resultOf (exec (.reservedOpc0 0x000#12) (plain [])) = some { Result.cleared with err := .misuse, sub := some .reservedOpc }
      ∧ eventsOf (exec (.reservedOpcA 0x000#12) (plain [])) = []
      ∧ (resultOf (exec (.reservedOpcB 0x001#12) (plain []))).map Result.sub = some (some .reservedOpc)
      ∧ (resultOf (exec (.reservedOpcC 0x002#12) (plain []))).map Result.sub = some (some .reservedOpc)
      ∧ (resultOf (exec (.reservedOpcD 0x004#12) (plain []))).map Result.sub = some (some .reservedOpc)
      ∧ (resultOf (exec (.reservedOpcE 0x008#12) (plain []))).map Result.sub = some (some .reservedOpc)
      ∧ (resultOf (exec (.reservedOpcF 0x0FF#12) (plain []))).map Result.sub = some (some .reservedOpc) := by decide

/-- R150: the example. -/
theorem test_wireRead :
    resultOf (exec (.wireRead 0x00#5) (plain [answer 0xC0#8 0x01#8]))
      = some { Result.cleared with st := statusSlots [0xC0#8], nexch := 1#4, nframes := 1#4 } := by decide
/-- R146: the example. -/
theorem test_wireWrite :
    eventsOf (exec (.wireWrite 0x02#5 0x51#8) (plain [answer 0xC0#8 0x00#8])) = [.exchange [0x04#8, 0x51#8]] := by decide

/-! ### Witnesses: values that meet the hypotheses of each statement, clause by clause, at the ends of their ranges -/

theorem witness_rejectedRecord : decodeRequest (tableRequest 0x1020) = .error (.misuse .reservedBits) := by decide
theorem witness_decodedHeader : decodeRequest (tableRequest 0x1005) = .ok (.readReg 0x05#5) := by decide
theorem witness_aggregate : [0xC0#8, 0xC5#8, 0xC0#8, 0xC0#8, 0xC0#8, 0xC0#8, 0xC0#8, 0xE0#8].length ≤ 8
    ∧ ([] : List Byte).length ≤ 8 := by decide
theorem witness_fieldLaws :
    registerCovered Config.defaultLayout .ic1 = true
      ∧ (⟨.ic1, .toff, 7, 6, .enum Config.tableToff⟩ : LayoutRow) ∈ registerRows Config.defaultLayout .ic1
      ∧ (⟨.ic1, .mode, 1, 0, .enum Config.tableMode⟩ : LayoutRow) ∈ registerRows Config.defaultLayout .ic1
      ∧ (⟨.ic1, .mode, 1, 0, .enum Config.tableMode⟩ : LayoutRow) ≠ ⟨.ic1, .toff, 7, 6, .enum Config.tableToff⟩ := by
  decide
/-- A register with two reserved fields of one name. -/
theorem witness_fieldRecords :
    registerCovered otherLayout .ic3 = true
      ∧ (fromByte otherLayout .ic3 0x8B#8).map Prod.fst = (registerRows otherLayout .ic3).map LayoutRow.field
      ∧ ∀ x ∈ (registerRows otherLayout .ic3).zip (fromByte otherLayout .ic3 0x8B#8), x.2.2 &&& fieldMask x.1 = x.2.2 := by
  decide
theorem witness_enumerations :
    layoutOk otherLayout = true
      ∧ (⟨.ic3, .lock, 6, 4, .enum Config.tableLock⟩ : LayoutRow) ∈ otherLayout
      ∧ (⟨.ic1, .mode, 7, 6, .enum Config.tableMode.reverse⟩ : LayoutRow) ∈ otherLayout
      ∧ (7#8).toNat < 2 ^ fieldWidth ⟨.ic3, .lock, 6, 4, .enum Config.tableLock⟩
      ∧ 2 ^ fieldWidth ⟨.ic3, .lock, 6, 4, .enum Config.tableLock⟩ ≤ (8#8).toNat
      ∧ .noEffect 7#8 ∈ Config.tableLock ∧ .bridge .pwm ∉ Config.tableLock := by decide
theorem witness_parameters :
    paramsOk otherParams = true ∧ (⟨.ic3, .clrFlt, 0, 0, .flag⟩ : LayoutRow) ∈ otherParams.layout
      ∧ (⟨.ic1, .toff, 1, 0, .enum Config.tableToff⟩ : LayoutRow) ∈ otherParams.layout ∧ isEnumerated .toff = true := by
  decide

/-- The response of a witness. -/
def rx : Bytes8 := #v[0xC5#8, 0x51#8, 0xC0#8, 0x04#8, 0xC1#8, 0x30#8, 0xC0#8, 0x08#8]

/-- A state with a record on offer. -/
def offering (h : Header) : State := { plain [] with offers := [⟨h, 0, 0, 0, 0, none, none⟩] }

theorem witness_readReg_ok :
    SpellsReadReg 0x05#5 .readIc4 ∧ SpellsReadReg 0x00#5 .readFault ∧ (plain [.ok rx]).phase = .idle ∧ (0x05#5).toNat ≤ 5
      ∧ (plain [.ok rx]).transport = .ok rx :: [] :=
  ⟨.inr (.inr (.inr (.inr (.inr (.inr ⟨rfl, rfl⟩))))), .inr (.inl ⟨rfl, rfl⟩), rfl, by decide, rfl⟩
theorem witness_readReg_err :
    SpellsReadReg 0x01#5 .readDiag ∧ (plain [.err]).phase = .idle ∧ (0x01#5).toNat ≤ 5
      ∧ (plain [.err]).transport = .err :: [] :=
  ⟨.inr (.inr (.inl ⟨rfl, rfl⟩)), rfl, by decide, rfl⟩
theorem witness_readReg_range : SpellsReadReg 0x06#5 (.readReg 0x06#5) ∧ (plain []).phase = .idle ∧ 5 < (0x06#5).toNat :=
  ⟨.inl rfl, rfl, by decide⟩
theorem witness_writeReg_ok :
    SpellsWriteReg 0x02#5 0x51#8 (.writeIc1 0x51#8) ∧ SpellsWriteReg 0x05#5 0x51#8 (.writeIc4 0x51#8)
      ∧ (plain [.ok rx]).phase = .idle ∧ 2 ≤ (0x02#5).toNat ∧ (0x05#5).toNat ≤ 5 ∧ (plain [.ok rx]).transport = .ok rx :: [] :=
  ⟨.inr (.inl ⟨rfl, rfl⟩), .inr (.inr (.inr (.inr ⟨rfl, rfl⟩))), rfl, by decide, by decide, rfl⟩
theorem witness_writeReg_err :
    SpellsWriteReg 0x04#5 0x30#8 (.writeIc3 0x30#8) ∧ (plain [.err]).phase = .idle ∧ 2 ≤ (0x04#5).toNat
      ∧ (0x04#5).toNat ≤ 5 ∧ (plain [.err]).transport = .err :: [] :=
  ⟨.inr (.inr (.inr (.inl ⟨rfl, rfl⟩))), rfl, by decide, by decide, rfl⟩
theorem witness_writeReg_misuse :
    SpellsWriteReg 0x06#5 0x00#8 (.writeReg 0x06#5 0x00#8) ∧ 5 < (0x06#5).toNat
      ∧ SpellsWriteReg 0x01#5 0x00#8 (.writeReg 0x01#5 0x00#8) ∧ (0x01#5).toNat ≤ 1 ∧ (plain []).phase = .idle :=
  ⟨.inl rfl, by decide, .inl rfl, by decide, rfl⟩
theorem witness_modifyReg_ok :
    SpellsModifyReg 0x02#5 (.merge 0x03#8 0x00#8) (.modifyIc1 0x03#8 0x00#8)
      ∧ SpellsModifyReg 0x05#5 (.merge 0x80#8 0x80#8) (.setBits 0x05#5 0x80#8)
      ∧ (plain [.ok rx, .ok rx]).phase = .idle ∧ 2 ≤ (0x02#5).toNat ∧ (0x05#5).toNat ≤ 5
      ∧ (plain [.ok rx, .ok rx]).transport = .ok rx :: .ok rx :: [] :=
  ⟨.inr (.inl ⟨_, _, rfl, .inl ⟨rfl, rfl⟩⟩), .inr (.inr (.inl ⟨_, rfl, rfl⟩)), rfl, by decide, by decide, rfl⟩
theorem witness_modifyReg_err :
    SpellsModifyReg 0x02#5 (.merge 0xFF#8 0x00#8) (.clrBits 0x02#5 0xFF#8) ∧ (plain [.err]).phase = .idle
      ∧ 2 ≤ (0x02#5).toNat ∧ (0x02#5).toNat ≤ 5 ∧ (plain [.err]).transport = .err :: []
      ∧ (plain [.ok rx, .err]).phase = .idle ∧ (plain [.ok rx, .err]).transport = .ok rx :: .err :: [] :=
  ⟨.inr (.inr (.inr ⟨_, rfl, rfl⟩)), rfl, by decide, by decide, rfl, rfl, rfl⟩
theorem witness_modifyReg_misuse :
    SpellsModifyReg 0x1F#5 (.table ⟨[], 0x00#8⟩) (.modifyReg 0x1F#5 (.table ⟨[], 0x00#8⟩)) ∧ 5 < (0x1F#5).toNat
      ∧ SpellsModifyReg 0x00#5 (.merge 0x00#8 0x00#8) (.modifyReg 0x00#5 (.merge 0x00#8 0x00#8)) ∧ (0x00#5).toNat ≤ 1
      ∧ (plain []).phase = .idle :=
  ⟨.inl rfl, by decide, .inl rfl, by decide, rfl⟩

/-- The records of RefusesAddress, one for each operation code that takes no address. -/
theorem witness_refusesAddress :
    (offering 0x4001#16).phase = .idle ∧ (offering 0x4001#16).offers = ⟨0x4001#16, 0, 0, 0, 0, none, none⟩ :: []
      ∧ [(0x4001#16, 0x4#4), (0x501F#16, 0x5#4), (0x6005#16, 0x6#4), (0x7004#16, 0x7#4), (0x8001#16, 0x8#4),
          (0x9010#16, 0x9#4)].all
        (fun x => decide (headerOpc x.1 = x.2 ∧ headerRsv x.1 = 0#7 ∧ headerAddr x.1 ≠ 0#5)) = true :=
  ⟨rfl, rfl, by decide⟩
theorem witness_clearFault :
    (plain [.ok rx, .ok rx]).phase = .idle ∧ (plain [.ok rx, .ok rx]).transport = .ok rx :: .ok rx :: []
      ∧ (plain [.err]).transport = .err :: [] ∧ (plain [.ok rx, .err]).transport = .ok rx :: .err :: [] :=
  ⟨rfl, rfl, rfl, rfl⟩
theorem witness_readConfig_discrete :
    (plain [.ok rx, .ok rx, .ok rx, .ok rx]).phase = .idle ∧ (plain [.ok rx, .ok rx, .ok rx, .ok rx]).params.batched = false
      ∧ (plain [.ok rx, .ok rx, .ok rx, .ok rx]).transport = .ok rx :: .ok rx :: .ok rx :: .ok rx :: []
      ∧ [rx, rx, rx].length < 4 ∧ (plain [.ok rx, .ok rx, .ok rx, .err]).transport = [rx, rx, rx].map .ok ++ .err :: []
      ∧ ([] : List Bytes8).length < 4 ∧ (plain [.err]).transport = [].map .ok ++ .err :: [] :=
  ⟨rfl, rfl, rfl, by decide, rfl, by decide, rfl⟩
theorem witness_readConfig_batched :
    (batch [.ok rx]).phase = .idle ∧ (batch [.ok rx]).params.batched = true ∧ (batch [.ok rx]).transport = .ok rx :: []
      ∧ (batch [.err]).transport = .err :: [] :=
  ⟨rfl, rfl, rfl, rfl⟩
theorem witness_writeConfig :
    SpellsWriteConfig (plain [.ok rx, .err]).params 0x08300451#32 .writeDefaults
      ∧ SpellsWriteConfig (batch [.ok rx]).params 0x88FFFFFF#32 (.writeConfig 0x88FFFFFF#32)
      ∧ (plain [.ok rx, .err]).phase = .idle ∧ (plain [.ok rx, .err]).transport = [rx].map .ok ++ .err :: [] :=
  ⟨.inr ⟨rfl, by decide⟩, .inl rfl, rfl, rfl⟩
theorem witness_modifyConfig_discrete :
    (plain [.ok rx, .ok rx, .ok rx, .ok rx, .ok rx, .ok rx, .ok rx, .ok rx]).phase = .idle
      ∧ (plain [.ok rx, .ok rx, .ok rx, .ok rx, .ok rx, .ok rx, .ok rx, .ok rx]).params.batched = false
      ∧ (plain [.ok rx, .ok rx, .ok rx, .ok rx, .ok rx, .ok rx, .ok rx, .ok rx]).transport
        = .ok rx :: .ok rx :: .ok rx :: .ok rx :: .ok rx :: .ok rx :: .ok rx :: .ok rx :: []
      ∧ (plain [.ok rx, .ok rx, .ok rx, .ok rx, .ok rx, .ok rx, .ok rx, .err]).transport
        = .ok rx :: .ok rx :: .ok rx :: .ok rx :: ([rx, rx, rx].map .ok ++ .err :: []) :=
  ⟨rfl, rfl, rfl, rfl⟩
theorem witness_modifyConfig_batched :
    (batch [.ok rx, .ok rx]).phase = .idle ∧ (batch [.ok rx, .ok rx]).params.batched = true
      ∧ (batch [.ok rx, .ok rx]).transport = .ok rx :: .ok rx :: []
      ∧ (batch [.ok rx, .err]).transport = .ok rx :: .err :: [] :=
  ⟨rfl, rfl, rfl, rfl⟩
theorem witness_awaken :
    (powered .asleep .low [.ok] [.done]).phase = .idle ∧ (powered .asleep .low [.ok] [.done]).params.hasSleepPin = true
      ∧ (powered .asleep .low [.ok] [.done]).sleep ≠ .awake ∧ (powered .asleep .low [.ok] [.done]).sleepPin = .ok :: []
      ∧ (powered .asleep .low [.ok] [.done]).delay = .done :: []
      ∧ (powered .unknown .low [.ok] [.notYet]).sleep ≠ .awake ∧ (powered .unknown .low [.ok] [.notYet]).delay = .notYet :: []
      ∧ (powered .unknown .low [.err] []).sleepPin = .err :: []
      ∧ (powered .awake .high [] []).sleep = .awake ∧ (plain []).params.hasSleepPin = false := by decide
theorem witness_sleep :
    (powered .awake .high [.ok] [.done]).phase = .idle ∧ (powered .awake .high [.ok] [.done]).params.hasSleepPin = true
      ∧ (powered .awake .high [.ok] [.done]).sleep ≠ .asleep ∧ (powered .awake .high [.ok] [.done]).sleepPin = .ok :: []
      ∧ (powered .awake .high [.ok] [.done]).delay = .done :: []
      ∧ (powered .unknown .low [.ok] [.notYet]).sleep ≠ .asleep
      ∧ (powered .unknown .low [.ok] [.notYet]).delay = .notYet :: []
      ∧ (powered .unknown .low [.err] []).sleepPin = .err :: []
      ∧ (powered .asleep .low [] []).sleep = .asleep ∧ (plain []).params.hasSleepPin = false := by decide
theorem witness_reservedOpc : ReservedOpc (.reservedOpcF 0x0FF#12) ∧ ReservedOpc (.reservedOpc0 0x000#12)
    ∧ (plain []).phase = .idle :=
  ⟨⟨0x0FF#12, by simp⟩, ⟨0x000#12, by simp⟩, rfl⟩
theorem witness_wire :
    ((Instr.wireRead 0x05#5 = .wireRead 0x05#5 ∧ [0x4A#8, 0x00#8] = [cmdRead (0x05#5).toNat, 0x00#8])
      ∧ (plain [.ok rx]).transport = .ok rx :: [])
      ∧ ((Instr.wireWrite 0x02#5 0x51#8 = .wireWrite 0x02#5 0x51#8 ∧ [0x04#8, 0x51#8] = [cmdWrite (0x02#5).toNat, 0x51#8])
      ∧ (plain [.err]).transport = .err :: []) :=
  ⟨⟨⟨rfl, rfl⟩, rfl⟩, ⟨rfl, rfl⟩, rfl⟩
theorem witness_stepRuns :
    (offering 0x1005#16).phase = .idle ∧ (offering 0x1005#16).offers = ⟨0x1005#16, 0, 0, 0, 0, none, none⟩ :: []
      ∧ decodeRequest ⟨0x1005#16, 0, 0, 0, 0, none, none⟩ = .ok (.readReg 0x05#5) := by decide
theorem witness_invalidHeader :
    (offering 0x3001#16).phase = .idle ∧ (offering 0x3001#16).offers = ⟨0x3001#16, 0, 0, 0, 0, none, none⟩ :: []
      ∧ validate (Request.header ⟨0x3001#16, 0, 0, 0, 0, none, none⟩) = some .readOnly := by decide
theorem witness_idle : (plain []).phase = .idle ∧ (plain []).offers = [] := by decide

/-- A block waiting for the answer to the read of READ_REG 0x00. -/
def busyRead (rs : List BusReply) : State :=
  { plain rs with phase := .busy, k := 1#4, outstanding := some (.exchange [0x40#8, 0x00#8]),
                  req := { ReqLatch.zero with opc := 1#4 }, history := [.exchange [0x40#8, 0x00#8]] }

/-- A block waiting for the sleep pin in AWAKEN. -/
def busyPin (ps : List PinReply) (ds : List DelayReply) : State :=
  { powered .asleep .low ps ds with phase := .busy, k := 1#4, outstanding := some (.pinSet .high),
                                    req := { ReqLatch.zero with opc := 8#4 } }

/-- A block waiting for t_wake to pass in AWAKEN. -/
def busyDelay (ds : List DelayReply) : State :=
  { powered .asleep .high [] ds with phase := .busy, k := 2#4, outstanding := some (.delay 1500),
                                     req := { ReqLatch.zero with opc := 8#4 } }

theorem busyRead_inv (rs : List BusReply) : SequencerInv (busyRead rs) :=
  ⟨(nomatch ·), fun _ => (by decide : validate (latchHeader { ReqLatch.zero with opc := 1#4 }) = none),
    fun _ => ⟨readRegProgram, _, rfl, Nat.le_refl 1, rfl,
      congrArg (fun b => some (Event.exchange b)) (by decide : [0x40#8, 0x00#8] = frameRead 0)⟩⟩
theorem busyPin_inv (ps : List PinReply) (ds : List DelayReply) : SequencerInv (busyPin ps ds) :=
  ⟨(nomatch ·), fun _ => (by decide : validate (latchHeader { ReqLatch.zero with opc := 8#4 }) = none),
    fun _ => ⟨awakenProgram, _, rfl, Nat.le_refl 1, rfl, rfl⟩⟩
theorem busyDelay_inv (ds : List DelayReply) : SequencerInv (busyDelay ds) :=
  ⟨(nomatch ·), fun _ => (by decide : validate (latchHeader { ReqLatch.zero with opc := 8#4 }) = none),
    fun _ => ⟨awakenProgram, _, rfl, (by decide : 1 ≤ 2), rfl, rfl⟩⟩

theorem witness_busy : (busyRead []).phase = .busy ∧ IsRequest .awaken ∧ ∃ t, step (busyRead [.ok rx]) = .next t :=
  ⟨rfl, trivial, _, rfl⟩
theorem witness_unanswered :
    (SequencerInv (busyRead [.notYet]) ∧ (busyRead [.notYet]).phase = .busy
        ∧ (busyRead [.notYet]).outstanding = some (.exchange [0x40#8, 0x00#8]) ∧ (busyRead [.notYet]).transport = .notYet :: [])
      ∧ (SequencerInv (busyPin [.notYet] []) ∧ (busyPin [.notYet] []).outstanding = some (.pinSet .high)
        ∧ (busyPin [.notYet] []).sleepPin = .notYet :: [])
      ∧ (SequencerInv (busyDelay [.notYet]) ∧ (busyDelay [.notYet]).outstanding = some (.delay 1500)
        ∧ (busyDelay [.notYet]).delay = .notYet :: []) :=
  ⟨⟨busyRead_inv _, rfl, rfl, rfl⟩, ⟨busyPin_inv _ _, rfl, rfl⟩, ⟨busyDelay_inv _, rfl, rfl⟩⟩
/-- The second exchange of MODIFY_REG, the pin set and the delay of AWAKEN, each answered late. -/
theorem witness_lateAnswer :
    (IsRequest (.modifyReg 0x02#5 (.merge 0x03#8 0x00#8)) ∧ (plain []).phase = .idle ∧ .notYet ∉ [BusReply.ok rx]
      ∧ ∃ t, exec (.modifyReg 0x02#5 (.merge 0x03#8 0x00#8)) { plain [] with transport := [.ok rx] ++ .notYet :: [.err] }
          = .next t ∧ t.phase = .busy ∧ t.outstanding = some (.exchange [0x04#8, 0x50#8]))
    ∧ (IsRequest .awaken ∧ (powered .asleep .low [] []).phase = .idle
      ∧ ∃ t, exec .awaken { powered .asleep .low [] [.done] with sleepPin := .notYet :: [.ok] } = .next t ∧ t.phase = .busy
          ∧ t.outstanding = some (.pinSet .high))
    ∧ ∃ t, exec .awaken { powered .asleep .low [.ok] [] with delay := .notYet :: [.done] } = .next t ∧ t.phase = .busy
        ∧ t.outstanding = some (.delay 1500) :=
  ⟨⟨trivial, rfl, by decide, _, rfl, rfl, rfl⟩, ⟨trivial, rfl, _, rfl, rfl, rfl⟩, _, rfl, rfl, rfl⟩

theorem witness_sequencerInvariant : SequencerInv (busyRead [.ok rx]) ∧ ∃ t, step (busyRead [.ok rx]) = .next t :=
  ⟨busyRead_inv _, _, rfl⟩
theorem busyDelay_power (ds : List DelayReply) : PowerInv (busyDelay ds) :=
  ⟨(nomatch ·), rfl, fun h => absurd rfl (h 1500), fun us h => by
    cases h
    exact .inl ⟨rfl, rfl, (nomatch ·), rfl⟩⟩
theorem witness_powerInvariant :
    SequencerInv (busyDelay [.done]) ∧ PowerInv (busyDelay [.done]) ∧ ∃ t, step (busyDelay [.done]) = .next t :=
  ⟨busyDelay_inv _, busyDelay_power _, _, rfl⟩
theorem busyRead_result (rs : List BusReply) : ResultInv (busyRead rs) :=
  ⟨Nat.zero_le 8, fun j h => by revert j; show ∀ j, (h : j < 8) → (Result.cleared.st[j]).isSome = decide (j < 0); decide,
    Nat.le_refl 0, rfl, fun _ => rfl, (nomatch ·), (nomatch ·), fun _ => ⟨rfl, rfl, rfl⟩, fun _ _ _ => ⟨rfl, rfl⟩,
    fun _ h => by rcases h with h | h <;> cases h⟩
theorem witness_resultInvariant :
    SequencerInv (busyRead [.ok rx]) ∧ ResultInv (busyRead [.ok rx]) ∧ ∃ t, step (busyRead [.ok rx]) = .next t :=
  ⟨busyRead_inv _, busyRead_result _, _, rfl⟩
theorem witness_historyInvariant :
    SequencerInv (busyRead [.ok rx]) ∧ HistoryInv (busyRead [.ok rx]) ∧ ∃ t, step (busyRead [.ok rx]) = .next t :=
  ⟨busyRead_inv _, ⟨fun _ => rfl⟩, _, rfl⟩
theorem witness_busyPower :
    (SequencerInv (busyDelay [.done]) ∧ (busyDelay [.done]).phase = .busy ∧ (busyDelay [.done]).req.opc = 0x8#4
        ∧ (busyDelay [.done]).outstanding = some (.delay (busyDelay [.done]).params.tWakeUs)
        ∧ (busyDelay [.done]).delay = .done :: [])
      ∧ (SequencerInv (busyPin [.ok] [.done]) ∧ (busyPin [.ok] [.done]).outstanding = some (.pinSet .high)
        ∧ (busyPin [.ok] [.done]).sleepPin = .ok :: [] ∧ (busyPin [.ok] [.done]).delay = .done :: [])
      ∧ (SequencerInv (busyPin [.ok] [.notYet]) ∧ (busyPin [.ok] [.notYet]).delay = .notYet :: [])
      ∧ (SequencerInv (busyPin [.err] []) ∧ (busyPin [.err] []).sleepPin = .err :: []) :=
  ⟨⟨busyDelay_inv _, rfl, rfl, rfl, rfl⟩, ⟨busyPin_inv _ _, rfl, rfl, rfl⟩, ⟨busyPin_inv _ _, rfl⟩, busyPin_inv _ _, rfl⟩
theorem witness_step : ∃ t, step (offering 0x1020#16) = .next t ∧ step (busyRead [.err]) ≠ .next t := by
  refine ⟨_, rfl, fun h => ?_⟩
  have := congrArg resultOf h
  revert this
  decide
theorem witness_onlyPower :
    IsRequest .clearFault ∧ ¬ IsPowerRequest .clearFault ∧ ∃ t, exec .clearFault (plain [.err]) = .next t :=
  ⟨trivial, fun h => by cases h <;> contradiction, _, rfl⟩
theorem witness_frame :
    (IsRequest .clearFault ∧ (plain [.err]).phase = .idle ∧ ¬ IsPowerRequest .clearFault ∧ ¬ ReadsConfig .clearFault
        ∧ ¬ WritesConfig .clearFault ∧ ∃ t, exec .clearFault (plain [.err]) = .next t)
      ∧ (IsRequest .sleep ∧ IsPowerRequest .sleep ∧ ∃ t, exec .sleep (powered .awake .high [.err] []) = .next t)
      ∧ ¬ ReadsValue .sleep ∧ ¬ WritesValue .sleep := by
  refine ⟨⟨trivial, rfl, fun h => by cases h <;> contradiction, id, id, _, rfl⟩, ⟨trivial, .inr rfl, _, rfl⟩, ?_, ?_⟩ <;>
    simp [ReadsValue, WritesValue, SpellsReadReg, SpellsWriteReg, SpellsModifyReg]
theorem witness_mark :
    (IsRequest (.readReg 0x00#5) ∧ (powered .asleep .low [] []).phase = .idle
        ∧ ∃ t, exec (.readReg 0x00#5) { powered .asleep .low [] [] with transport := [.ok rx] } = .next t
          ∧ t.history = (powered .asleep .low [] []).history ++ [.exchange [0x40#8, 0x00#8]])
      ∧ ∃ t, step { busyRead [.ok rx] with asleepAccess := true } = .next t :=
  ⟨⟨trivial, rfl, _, rfl, rfl⟩, _, rfl⟩
theorem witness_eventIndex :
    ((offering 0x9000#16).phase = .idle ∧ (offering 0x9000#16).offers = ⟨0x9000#16, 0, 0, 0, 0, none, none⟩ :: []
        ∧ validate 0x9000#16 = none ∧ ∃ t, step (offering 0x9000#16) = .next t)
      ∧ (SequencerInv (busyDelay [.done]) ∧ (busyDelay [.done]).phase = .busy ∧ ∃ t, step (busyDelay [.done]) = .next t) :=
  ⟨⟨rfl, rfl, by decide, _, rfl⟩, busyDelay_inv _, rfl, _, rfl⟩
theorem witness_errors_transport :
    IsRequest (.writeReg 0x02#5 0x51#8) ∧ (plain [.err]).phase = .idle
      ∧ ∃ t, exec (.writeReg 0x02#5 0x51#8) (plain [.err]) = .next t ∧ t.phase = .idle
        ∧ t.history = (plain [.err]).history ++ [.exchange [0x04#8, 0x51#8]] ∧ t.res.err = .transport :=
  ⟨trivial, rfl, _, rfl, rfl, rfl, rfl⟩
theorem witness_errors_pin :
    IsRequest .awaken ∧ (powered .asleep .low [.err] []).phase = .idle
      ∧ ∃ t, exec .awaken (powered .asleep .low [.err] []) = .next t ∧ t.phase = .idle
        ∧ t.history = (powered .asleep .low [.err] []).history ++ [.pinSet .high] ∧ t.res.err = .pin :=
  ⟨trivial, rfl, _, rfl, rfl, rfl, rfl⟩
theorem witness_errors_ok_and_misuse :
    (∃ t, exec .readFault (plain [.ok rx]) = .next t ∧ t.phase = .idle
        ∧ t.history = (plain [.ok rx]).history ++ [.exchange [0x40#8, 0x00#8]] ∧ t.res.err = .ok)
      ∧ ∃ t, exec (.readReg 0x06#5) (plain []) = .next t ∧ t.phase = .idle ∧ t.history = (plain []).history ++ []
        ∧ t.res.err = .misuse :=
  ⟨⟨_, rfl, rfl, rfl, rfl⟩, _, rfl, rfl, rfl, rfl⟩
/-- A later step that ends a request: with TRANSPORT, with OK, with PIN. -/
theorem witness_busyEnds :
    (SequencerInv (busyRead [.err]) ∧ ResultInv (busyRead [.err]) ∧ (busyRead [.err]).phase = .busy
        ∧ (busyRead [.err]).req.opc ≠ 0x8#4 ∧ (busyRead [.err]).req.opc ≠ 0x9#4
        ∧ ∃ t, step (busyRead [.err]) = .next t ∧ t.phase = .idle ∧ t.history = (busyRead [.err]).history ++ []
          ∧ t.res.err = .transport)
      ∧ (∃ t, step (busyRead [.ok rx]) = .next t ∧ t.phase = .idle ∧ t.history = (busyRead [.ok rx]).history ++ []
          ∧ t.res.err = .ok)
      ∧ (SequencerInv (busyPin [.err] []) ∧ ResultInv (busyPin [.err] []) ∧ ∃ t, step (busyPin [.err] []) = .next t ∧ t.phase = .idle
          ∧ t.history = (busyPin [.err] []).history ++ [] ∧ t.res.err = .pin) := by
  refine ⟨⟨busyRead_inv _, busyRead_result _, rfl, by decide, by decide, _, rfl, rfl, rfl, rfl⟩, ⟨_, rfl, rfl, rfl, rfl⟩,
    busyPin_inv _ _, ?_, _, rfl, rfl, rfl, rfl⟩
  obtain ⟨h1, h2, h3, h4, h5, h6, -, h8, -, h10⟩ := busyRead_result []
  exact ⟨h1, h2, h3, h4, h5, h6, (nomatch ·), h8, fun _ sent h => (nomatch h), fun _ _ => ⟨rfl, rfl⟩⟩
theorem witness_faultsAreData :
    IsRequest .readIc1 ∧ (plain [answer 0xC5#8 0x51#8]).phase = .idle
      ∧ SameButStatus (plain [answer 0xC5#8 0x51#8]).transport [answer 0xC0#8 0x51#8]
      ∧ ∃ t, exec .readIc1 (plain [answer 0xC5#8 0x51#8]) = .next t :=
  ⟨trivial, rfl, ⟨rfl, rfl, rfl, rfl, trivial⟩, _, rfl⟩
theorem witness_variants :
    (plain [.ok rx, .ok rx, .ok rx, .ok rx]).phase = .idle
      ∧ SpellsWriteConfig (plain [.ok rx, .ok rx, .ok rx, .ok rx]).params 0x00000000#32 (.writeConfig 0x00000000#32)
      ∧ (plain [.ok rx, .ok rx, .ok rx, .ok rx]).params.batched = false
      ∧ (plain [.ok rx, .ok rx, .ok rx, .ok rx]).transport = .ok rx :: .ok rx :: .ok rx :: .ok rx :: [] :=
  ⟨rfl, .inl rfl, rfl, rfl⟩
theorem witness_eventCounts :
    IsRequest .awaken ∧ Instr.awaken.wf = true ∧ IsRequest (.writeReg 0x05#5 0x00#8) ∧ (Instr.writeReg 0x05#5 0x00#8).wf = true
      ∧ ∃ s : State, s.phase = .idle ∧ (∀ j < 8, ∃ r, s.transport[j]? = some (.ok r)) ∧ s.sleepPin.head? = some .ok
        ∧ s.delay.head? = some .done := by
  refine ⟨trivial, rfl, trivial, rfl, { powered .asleep .low [.ok] [.done] with transport := List.replicate 8 (.ok rx) },
    rfl, fun j h => ⟨rx, List.getElem?_replicate_of_lt h⟩, rfl, rfl⟩

end Sys2Proof.Tests
end

section
/-!
The sticky mark ASLEEP_ACCESS (R28, R307). `MarkSince s t` accounts for the mark of t by the events issued since s. Every
run of a request keeps that account because S changes in a request's last stage only, after its last event.
-/

namespace Sys2Proof.Machine

/-! ### The account of the mark -/

/-- Since s the block has issued some events, and the mark has been set exactly if an exchange is among them and an access
at s is one while not awake. -/
def MarkSince (s t : State) : Prop :=
  ∃ es, t.history = s.history ++ es
    ∧ t.asleepAccess = (s.asleepAccess || (es.any isExchange && accessWhileAsleep s))

/-- The account holds of the very events by which the history has grown. -/
theorem MarkSince.mark_eq {s t : State} {es : List Event} (h : MarkSince s t) (he : t.history = s.history ++ es) :
    t.asleepAccess
      = (s.asleepAccess || (es.any isExchange && s.params.hasSleepPin && decide (s.sleep ≠ .awake))) := by
  obtain ⟨es', he', hm⟩ := h
  obtain rfl : es' = es := List.append_cancel_left (he'.symm.trans he)
  rw [hm, accessWhileAsleep, Bool.and_assoc]

theorem MarkSince.mark_sticky {s t : State} (h : MarkSince s t) (hs : s.asleepAccess = true) :
    t.asleepAccess = true := by
  obtain ⟨es, -, hm⟩ := h
  rw [hm, hs, Bool.true_or]

/-- What leaves the history and the mark alone keeps the account. -/
theorem MarkSince.of_eq {s t u : State} (h : MarkSince s t) (hh : u.history = t.history)
    (hm : u.asleepAccess = t.asleepAccess) : MarkSince s u := by
  obtain ⟨es, he, ha⟩ := h
  exact ⟨es, hh.trans he, hm.trans ha⟩

theorem MarkSince.refl (s : State) : MarkSince s s := ⟨[], by simp, by simp⟩

theorem accessWhileAsleep_congr {s t : State} (hp : t.params = s.params) (hs : t.sleep = s.sleep) :
    accessWhileAsleep t = accessWhileAsleep s := by
  rw [accessWhileAsleep, accessWhileAsleep, hp, hs]

/-- Issuing an event keeps the account where S is what it was at s (R150, R307). -/
theorem MarkSince.issue {s t : State} (h : MarkSince s t) (hp : t.params = s.params) (hs : t.sleep = s.sleep)
    (e : Event) : MarkSince s (issue e t) := by
  obtain ⟨es, he, hm⟩ := h
  refine ⟨es ++ [e], by simp [he], ?_⟩
  cases e with
  | exchange sent =>
    rw [issue_exchange_asleepAccess, accessWhileAsleep_congr hp hs, hm]
    cases accessWhileAsleep s <;> simp [isExchange]
  | pinSet l => simp [hm, isExchange]
  | delay us => simp [hm, isExchange]

theorem MarkSince.waiting {s t u : State} {e : Event} (h : MarkSince s t) (hA : awaitAnswer e t = .waiting u) :
    MarkSince s u := by
  obtain ⟨-, -, -, -, -, -, -, hh, hm, -⟩ := take_keeps hA
  exact h.of_eq hh hm

theorem MarkSince.complete_failed {s t u : State} {e : Event} {x : Err} {w : Bool} (h : MarkSince s t)
    (hA : awaitAnswer e t = .failed x w u) : MarkSince s (complete x w u) := by
  obtain ⟨-, -, -, -, hh, hm, -⟩ := failed_keeps hA
  exact h.of_eq hh hm

/-! ### The account along a request -/

/-- The request with body p, taken up at s, stands at t before its stages gs: the mark is accounted for, and where an event
is still to come S is what it was at s. -/
structure MarkedBefore (p : Program) (s : State) (gs : List Stage) (t : State) : Prop where
  since : MarkSince s t
  suffix : gs <:+ p.stages s
  access : gs ≠ [] → t.params = s.params ∧ t.sleep = s.sleep

/-- The answer to an event and the stage's own effect lead to the stages after it: only the last stage changes S. -/
theorem MarkedBefore.done {p : Program} {o : BitVec 4} {s t u : State} {g : Stage} {gs : List Stage} {e : Event}
    (hp : programOf o = some p) (hg : g :: gs <:+ p.stages s) (h : MarkSince s t) (hpar : t.params = s.params)
    (hsl : t.sleep = s.sleep) (hA : awaitAnswer e t = .answered u) : MarkedBefore p s gs (g.done u) := by
  obtain ⟨hup, hus, -, -, -, -, hh, hm, -⟩ := answered_keeps hA
  have L : StageLaws g := stageLaws hp s g (hg.subset List.mem_cons_self)
  obtain ⟨pre, hpre⟩ := hg
  refine ⟨h.of_eq ((L.history u).trans hh) ((L.mark u).trans hm), ⟨pre ++ [g], by simp [hpre]⟩, fun hne => ⟨?_, ?_⟩⟩
  · rw [L.params, hup, hpar]
  · rw [done_sleep hp hpre.symm hne, hus, hsl]

theorem MarkedBefore.runStages {p : Program} {o : BitVec 4} {s : State} (hp : programOf o = some p) {gs : List Stage}
    {t : State} (h : MarkedBefore p s gs t) : MarkSince s (runStages gs t) := by
  refine runStages_keeps (P := MarkedBefore p s) (Q := MarkSince s) ?atEnd ?waits ?fails ?goesOn gs t h
  case atEnd => exact fun t h => h.since.of_eq rfl rfl
  all_goals
    intro g gs t
    have hi : MarkedBefore p s (g :: gs) t → MarkSince s (Machine.issue (g.event t) t) := fun h =>
      h.since.issue (h.access (by simp)).1 (h.access (by simp)).2 _
  case waits => exact fun u h hA => (hi h).waiting hA
  case fails => exact fun e w u h hA => (hi h).complete_failed hA
  case goesOn =>
    intro u h hA
    obtain ⟨hpar, hsl⟩ := h.access (by simp)
    exact .done hp h.suffix (hi h) (by simpa using hpar) (by simpa using hsl) hA

/-! ### The account of a step -/

/-- What a request does before its first event leaves the parameters, S, the history and the mark alone. -/
theorem start_keeps {o : BitVec 4} {p : Program} (h : programOf o = some p) (s : State) :
    (p.start s).params = s.params ∧ (p.start s).sleep = s.sleep ∧ (p.start s).history = s.history
      ∧ (p.start s).asleepAccess = s.asleepAccess := by
  cases o, p, h using programOf_elim <;> exact ⟨rfl, rfl, rfl, rfl⟩

/-- The run of a request from its acceptance accounts for the mark (R220). -/
theorem accepted_markSince {r : Request} {p : Program} {o : BitVec 4} (hp : programOf o = some p) (s : State) :
    MarkSince s (runStages (p.stages (latch r s)) (p.start (latch r s))) := by
  obtain ⟨hpar, hsl, hh, hm⟩ := start_keeps hp (latch r s)
  rw [stages_ext hp (latch_params r s) (latch_sleep r s)]
  exact MarkedBefore.runStages hp ⟨(MarkSince.refl s).of_eq hh hm, List.suffix_rfl, fun _ => ⟨hpar, hsl⟩⟩

/-- Going on with a request accounts for the mark, wherever it stands. -/
theorem resume_markSince {p : Program} {o : BitVec 4} (hp : programOf o = some p) (s : State) :
    MarkSince s (resume p s) := by
  have h := MarkSince.refl s
  unfold resume
  cases s.outstanding with
  | none => exact MarkedBefore.runStages hp ⟨h, List.drop_suffix _ _, fun _ => ⟨rfl, rfl⟩⟩
  | some e =>
    cases hA : awaitAnswer e s with
    | waiting t => simpa only [hA] using h.waiting hA
    | failed x w t => simpa only [hA] using h.complete_failed hA
    | answered t =>
      cases hd : (p.stages s).drop (s.k.toNat - 1) with
      | nil =>
        obtain ⟨-, -, -, -, -, -, hh, hm, -⟩ := answered_keeps hA
        simpa only [hA, hd] using h.of_eq (u := complete .ok false t) hh hm
      | cons g gs =>
        have hg : g :: gs <:+ p.stages s := hd ▸ List.drop_suffix _ _
        simpa only [hA, hd] using (MarkedBefore.done hp hg h rfl rfl hA).runStages hp

theorem exec_markSince {i : Instr} {s t : State} (hi : IsRequest i) (h : exec i s = .next t) : MarkSince s t := by
  obtain ⟨r, p, hx, hp⟩ := exec_accepts hi s
  obtain rfl : acceptRequest r p s = t := by simpa [hx] using h
  rcases acceptRequest_cases r p s with ⟨-, ha⟩ | ⟨-, sub, -, ha⟩ | ⟨-, hv, ha⟩ <;> rw [ha]
  · exact .refl s
  · exact (MarkSince.refl s).of_eq rfl rfl
  · exact accepted_markSince (hp hv) s

/-- Every step, from any state, accounts for the mark. -/
theorem step_markSince {s t : State} (h : step s = .next t) : MarkSince s t := by
  rcases step_cases h with ⟨-, -, rfl⟩ | ⟨-, r, more, sub, -, -, rfl⟩ | ⟨-, r, more, p, -, -, hp, rfl⟩ | ⟨-, p, hp, rfl⟩
  · exact .refl t
  · exact (MarkSince.refl s).of_eq rfl rfl
  · exact accepted_markSince hp s
  · exact resume_markSince hp s

/-- Settles O45: the account of the mark, for a request by `exec` and for any step. -/
theorem theMarkIsSetExactlyByAccessWhileAsleep : Obligations.TheMarkIsSetExactlyByAccessWhileAsleep :=
  ⟨fun _ _ _ _ hi _ hx he => (exec_markSince hi hx).mark_eq he,
    fun _ _ _ _ _ hx he => (step_markSince hx).mark_eq he,
    fun _ _ hx => (step_markSince hx).mark_sticky⟩

end Sys2Proof.Machine
end

section
/-!
Configuration packing (R113, R175, R176). CONFIG_PACK concatenates the four control bytes, so it undoes `cfgByte` by
joining adjacent extracts, and `cfgByte` undoes it by dropping the bytes on either side.
-/

namespace Sys2Proof

/-! ### From the bytes to the configuration -/

/-- Concatenation puts its right part in the low n bits. -/
theorem toNat_append_eq_add {m n : Nat} (x : BitVec m) (y : BitVec n) :
    (x ++ y).toNat = x.toNat * 2 ^ n + y.toNat := by
  rw [BitVec.toNat_append, ← Nat.shiftLeft_add_eq_or_of_lt y.isLt, Nat.shiftLeft_eq]

/-- The numeric reading of R113. -/
theorem configPack_toNat (a b c d : Byte) :
    (configPack a b c d).toNat = a.toNat + b.toNat * 2 ^ 8 + c.toNat * 2 ^ 16 + d.toNat * 2 ^ 24 := by
  have h : (configPack a b c d).toNat = ((d.toNat * 2 ^ 8 + c.toNat) * 2 ^ 8 + b.toNat) * 2 ^ 8 + a.toNat := by
    simp only [configPack, toNat_append_eq_add]
  omega

@[simp] theorem cfgByte_configPack_zero (a b c d : Byte) : cfgByte (configPack a b c d) 0 = a :=
  BitVec.extractLsb'_append_eq_right

@[simp] theorem cfgByte_configPack_one (a b c d : Byte) : cfgByte (configPack a b c d) 1 = b := by
  calc cfgByte (configPack a b c d) 1
    _ = (d ++ c ++ b).extractLsb' 0 8 := BitVec.extractLsb'_append_eq_of_le (by decide)
    _ = b := BitVec.extractLsb'_append_eq_right

@[simp] theorem cfgByte_configPack_two (a b c d : Byte) : cfgByte (configPack a b c d) 2 = c := by
  calc cfgByte (configPack a b c d) 2
    _ = (d ++ c ++ b).extractLsb' 8 8 := BitVec.extractLsb'_append_eq_of_le (by decide)
    _ = (d ++ c).extractLsb' 0 8 := BitVec.extractLsb'_append_eq_of_le (by decide)
    _ = c := BitVec.extractLsb'_append_eq_right

@[simp] theorem cfgByte_configPack_three (a b c d : Byte) : cfgByte (configPack a b c d) 3 = d := by
  calc cfgByte (configPack a b c d) 3
    _ = (d ++ c ++ b).extractLsb' 16 8 := BitVec.extractLsb'_append_eq_of_le (by decide)
    _ = (d ++ c).extractLsb' 8 8 := BitVec.extractLsb'_append_eq_of_le (by decide)
    _ = d := BitVec.extractLsb'_append_eq_left

/-- CONFIG_UNPACK gives back the bytes that CONFIG_PACK was given. -/
theorem configUnpack_configPack (a b c d : Byte) : configUnpack (configPack a b c d) = (a, b, c, d) := by
  simp [configUnpack]

/-! ### From the configuration to its bytes and back -/

/-- A configuration is its four bytes: each concatenation joins two adjacent extracts. -/
theorem configPack_cfgByte (c : Cfg) : configPack (cfgByte c 0) (cfgByte c 1) (cfgByte c 2) (cfgByte c 3) = c := by
  have high : cfgByte c 3 ++ cfgByte c 2 = c.extractLsb' 16 16 :=
    BitVec.extractLsb'_append_extractLsb'_eq_extractLsb' (by decide)
  have upper : c.extractLsb' 16 16 ++ cfgByte c 1 = c.extractLsb' 8 24 :=
    BitVec.extractLsb'_append_extractLsb'_eq_extractLsb' (by decide)
  have whole : c.extractLsb' 8 24 ++ cfgByte c 0 = c.extractLsb' 0 32 :=
    BitVec.extractLsb'_append_extractLsb'_eq_extractLsb' (by decide)
  calc configPack (cfgByte c 0) (cfgByte c 1) (cfgByte c 2) (cfgByte c 3)
    _ = cfgByte c 3 ++ cfgByte c 2 ++ cfgByte c 1 ++ cfgByte c 0 := rfl
    _ = c.extractLsb' 0 32 := by rw [high, upper, whole]
    _ = c := BitVec.extractLsb'_eq_self

/-- Settles O13: both round trips, and the place of each byte in the packed number. -/
theorem configurationPacking : Obligations.ConfigurationPacking :=
  ⟨fun a b c d => ⟨configUnpack_configPack a b c d, configPack_toNat a b c d⟩, configPack_cfgByte⟩

end Sys2Proof
end

section
/-!
Status bytes (R107, R147, R149, R152). The payload is the low six bits, and AGG over the recorded frames is the search for
the first status byte that decodes to a fault.
-/

namespace Sys2Proof.Machine

/-! ### One status byte (R107, R147) -/

/-- The mask 0x3F keeps what an extension of the low six bits keeps. -/
theorem and_payloadMask (s : Byte) : s &&& 0x3F#8 = (s.setWidth 6).setWidth 8 :=
  (BitVec.and_setWidth_allOnes 2 6 s).trans (BitVec.setWidth_eq_append (by decide)).symm

theorem payload_eq_setWidth (s : Byte) : payload s = s.setWidth 6 := by
  rw [payload, and_payloadMask, BitVec.setWidth_setWidth_of_le _ (by decide), BitVec.setWidth_eq]

theorem payload_eq_extractLsb' (s : Byte) : payload s = s.extractLsb' 0 6 :=
  (payload_eq_setWidth s).trans (BitVec.setWidth_eq_extractLsb' (by decide))

theorem faultView_payload (s : Byte) : faultView (payload s) = s &&& 0x3F#8 := by
  rw [faultView, payload_eq_setWidth, and_payloadMask]

theorem decodeStatus_of_ne {s : Byte} (h : s ≠ Config.statusOk) : decodeStatus s = some (payload s) := if_neg h

theorem decodeStatus_eq_none_iff {s : Byte} : decodeStatus s = none ↔ s = Config.statusOk := by
  simp [decodeStatus]

/-- Settles O7: the byte 0xC0, the other bytes, and the payload as a byte. -/
theorem statusDecoding : Obligations.StatusDecoding :=
  ⟨decodeStatus_eq_none_iff.mpr rfl,
    fun s h => (decodeStatus_of_ne h).trans (congrArg some (payload_eq_extractLsb' s)),
    faultView_payload⟩

/-! ### The first fault in frame order (R149) -/

/-- AGG's walk over the recorded frames is a search in frame order. -/
theorem firstFault_map_some (bs : List Byte) : firstFault (bs.map some) = bs.findSome? decodeStatus := by
  induction bs with
  | nil => rfl
  | cons b bs ih =>
    rw [List.map_cons, firstFault, List.findSome?_cons, ih]
    cases decodeStatus b <;> rfl

theorem firstFault_eq_none_iff {bs : List Byte} :
    firstFault (bs.map some) = none ↔ ∀ b ∈ bs, b = Config.statusOk := by
  simp only [firstFault_map_some, List.findSome?_eq_none_iff, decodeStatus_eq_none_iff]

/-- The fault found is that of a frame j which reports one, where no frame before j does. -/
theorem firstFault_eq_some_iff {bs : List Byte} {p : Payload} :
    firstFault (bs.map some) = some p ↔
      ∃ j, ∃ h : j < bs.length, decodeStatus bs[j] = some p
        ∧ ∀ i, (hi : i < j) → decodeStatus (bs[i]'(Nat.lt_trans hi h)) = none := by
  rw [firstFault_map_some, List.findSome?_eq_some_iff]
  constructor
  · rintro ⟨before, b, after, rfl, hb, hbefore⟩
    refine ⟨before.length, by simp, by simpa using hb, fun i hi => ?_⟩
    rw [List.getElem_append_left hi]
    exact hbefore _ (List.getElem_mem hi)
  · rintro ⟨j, hj, hp, hnone⟩
    refine ⟨bs.take j, bs[j], bs.drop (j + 1), by simp, hp, fun x hx => ?_⟩
    obtain ⟨i, hi, rfl⟩ := List.mem_take_iff_getElem.mp hx
    exact hnone i (by omega)

/-- Settles O8: completion aggregates the record and keeps it, and AGG over the recorded bytes is the search above. -/
theorem aggregateIsTheFirstFaultInFrameOrder : Obligations.AggregateIsTheFirstFaultInFrameOrder := by
  refine ⟨fun _ _ _ => ⟨rfl, rfl, rfl⟩, fun bs p hlen => ?_⟩
  rw [aggregate_statusSlots bs hlen]
  exact ⟨firstFault_eq_none_iff, firstFault_eq_some_iff⟩

end Sys2Proof.Machine
end

section
/-!
Field access bit by bit (R160 to R163). Bit i of GET and of SET is a bit of an operand, so the field laws compare bits.
Under a covering LAYOUT any two rows of a register are disjoint, so each entry of a record keeps its code while the other
rows are set; and every bit is in a row, so the codes determine the byte.
-/

namespace Sys2Proof.Machine

/-! ### The bits of GET and SET (R160, R161) -/

theorem rowHasBit_iff {f : LayoutRow} {i : Nat} : rowHasBit f i = true ↔ f.lo ≤ i ∧ i ≤ f.hi := decide_eq_true_iff

/-- Bit i of the code is bit `lo + i` of the byte. -/
theorem rowHasBit_lo_add {f : LayoutRow} (hf : f.lo ≤ f.hi) (i : Nat) :
    rowHasBit f (f.lo + i) = decide (i < fieldWidth f) := by
  rw [rowHasBit, decide_eq_decide, fieldWidth]
  omega

/-- The ones of the mask are the bits that a shift by the width clears. -/
theorem fieldMask_eq_not_shiftLeft (f : LayoutRow) : fieldMask f = ~~~(BitVec.allOnes 8 <<< fieldWidth f) := by
  rw [fieldMask, ← BitVec.not_neg, BitVec.shiftLeft_eq_mul_twoPow, ← BitVec.neg_mul, BitVec.neg_one_eq_allOnes,
    ← BitVec.shiftLeft_eq_mul_twoPow]

theorem getLsbD_fieldMask {f : LayoutRow} {i : Nat} (hi : i < 8) :
    (fieldMask f).getLsbD i = decide (i < fieldWidth f) := by
  have hw : i - fieldWidth f < 8 := by omega
  rw [fieldMask_eq_not_shiftLeft, BitVec.getLsbD_not, BitVec.getLsbD_shiftLeft, BitVec.getLsbD_allOnes]
  simp [hi, hw]

theorem getLsbD_getField {f : LayoutRow} {i : Nat} (hi : i < 8) (v : Byte) :
    (getField v f).getLsbD i = (v.getLsbD (f.lo + i) && decide (i < fieldWidth f)) := by
  rw [getField, BitVec.getLsbD_and, BitVec.getLsbD_ushiftRight, getLsbD_fieldMask hi]

/-- SET takes the bits of the field from the code and the others from the byte. -/
theorem getLsbD_setField {f : LayoutRow} (hf : f.lo ≤ f.hi) {i : Nat} (hi : i < 8) (v x : Byte) :
    (setField v f x).getLsbD i = if rowHasBit f i then x.getLsbD (i - f.lo) else v.getLsbD i := by
  have hm : (fieldMask f).getLsbD (i - f.lo) = decide (i - f.lo < fieldWidth f) := getLsbD_fieldMask (by omega)
  have hbit : rowHasBit f i = (!decide (i < f.lo) && decide (i - f.lo < fieldWidth f)) := by
    rw [rowHasBit, ← decide_not, ← Bool.decide_and, decide_eq_decide, fieldWidth]
    omega
  rw [setField, BitVec.getLsbD_or, BitVec.getLsbD_and, BitVec.getLsbD_not, BitVec.getLsbD_shiftLeft,
    BitVec.getLsbD_shiftLeft, BitVec.getLsbD_and, hm, hbit, decide_eq_true hi]
  cases decide (i < f.lo) <;> cases decide (i - f.lo < fieldWidth f) <;> simp

/-! ### The field laws (R162) -/

/-- No bit is in both rows. -/
def RowsDisjoint (f g : LayoutRow) : Prop := ∀ i, rowHasBit f i = true → rowHasBit g i = false

theorem RowsDisjoint.symm {f g : LayoutRow} (h : RowsDisjoint f g) : RowsDisjoint g f := fun i hg =>
  Bool.eq_false_iff.mpr fun hf => by simp [h i hf] at hg

theorem getField_setField_same {f : LayoutRow} (hf : f.lo ≤ f.hi) (h7 : f.hi ≤ 7) (v x : Byte) :
    getField (setField v f x) f = x &&& fieldMask f := by
  apply BitVec.eq_of_getLsbD_eq
  intro i hi
  rw [getLsbD_getField hi, BitVec.getLsbD_and, getLsbD_fieldMask hi]
  by_cases hw : i < fieldWidth f
  · have hin : f.lo + i < 8 := by rw [fieldWidth] at hw; omega
    simp [getLsbD_setField hf hin, rowHasBit_lo_add hf, hw]
  · simp [hw]

theorem getField_setField_of_disjoint {f g : LayoutRow} (hf : f.lo ≤ f.hi) (hg : g.lo ≤ g.hi) (h7 : g.hi ≤ 7)
    (hd : RowsDisjoint g f) (v x : Byte) : getField (setField v f x) g = getField v g := by
  apply BitVec.eq_of_getLsbD_eq
  intro i hi
  rw [getLsbD_getField hi, getLsbD_getField hi]
  by_cases hw : i < fieldWidth g
  · have hin : g.lo + i < 8 := by rw [fieldWidth] at hw; omega
    have hbit : rowHasBit f (g.lo + i) = false := hd _ (by rw [rowHasBit_lo_add hg, decide_eq_true hw])
    simp [getLsbD_setField hf hin, hbit]
  · simp [hw]

/-- Setting a field to the code it has changes nothing. -/
theorem setField_getField {f : LayoutRow} (hf : f.lo ≤ f.hi) (v : Byte) : setField v f (getField v f) = v := by
  apply BitVec.eq_of_getLsbD_eq
  intro i hi
  rw [getLsbD_setField hf hi]
  split
  next hbit =>
    obtain ⟨hlo, hhi⟩ := rowHasBit_iff.mp hbit
    have hw : i - f.lo < fieldWidth f := by rw [fieldWidth]; omega
    rw [getLsbD_getField (by omega), decide_eq_true hw, Bool.and_true, Nat.add_sub_cancel' hlo]
  next => rfl

/-- A second SET of the same field overwrites the first. -/
theorem setField_setField {f : LayoutRow} (hf : f.lo ≤ f.hi) (v x y : Byte) :
    setField (setField v f x) f y = setField v f y := by
  apply BitVec.eq_of_getLsbD_eq
  intro i hi
  simp only [getLsbD_setField hf hi]
  split <;> rfl

/-! ### The rows of a covered register (R39) -/

/-- What `registerCovered` says: the rows lie inside the byte, and each bit is in exactly one. -/
theorem registerCovered_iff {l : Layout} {r : RegName} :
    registerCovered l r = true ↔ (∀ f ∈ registerRows l r, f.lo ≤ f.hi ∧ f.hi ≤ 7)
      ∧ ∀ i < 8, (registerRows l r).countP (rowHasBit · i) = 1 := by
  simp [registerCovered]

/-- Rows of which at most one has any bit are disjoint in pairs. -/
theorem pairwise_rowsDisjoint {rows : List LayoutRow} (h : ∀ i, rows.countP (rowHasBit · i) ≤ 1) :
    rows.Pairwise RowsDisjoint := by
  induction rows with
  | nil => exact .nil
  | cons f rows ih =>
    refine .cons (fun g hg i hf => ?_) (ih fun i => (List.sublist_cons_self f rows).countP_le.trans (h i))
    have hnone : ∀ g ∈ rows, rowHasBit g i = false := by simpa [hf] using h i
    exact hnone g hg

section
variable {l : Layout} {r : RegName} (hc : registerCovered l r = true)
include hc

theorem covered_row_in_byte {f : LayoutRow} (hf : f ∈ registerRows l r) : f.lo ≤ f.hi ∧ f.hi ≤ 7 :=
  (registerCovered_iff.mp hc).1 f hf

/-- Every bit of the byte is in a row. -/
theorem covered_exists_row {i : Nat} (hi : i < 8) : ∃ f ∈ registerRows l r, rowHasBit f i = true :=
  List.one_le_countP_iff.mp ((registerCovered_iff.mp hc).2 i hi).ge

theorem covered_pairwise_disjoint : (registerRows l r).Pairwise RowsDisjoint := by
  refine pairwise_rowsDisjoint fun i => ?_
  by_cases hi : i < 8
  · exact ((registerCovered_iff.mp hc).2 i hi).le
  · refine (List.countP_eq_zero.mpr fun f hf => ?_).trans_le zero_le_one
    have := (covered_row_in_byte hc hf).2
    rw [rowHasBit_iff]
    omega

theorem covered_disjoint {f g : LayoutRow} (hf : f ∈ registerRows l r) (hg : g ∈ registerRows l r) (hne : f ≠ g) :
    RowsDisjoint f g :=
  have : Std.Symm RowsDisjoint := ⟨fun _ _ => .symm⟩
  (covered_pairwise_disjoint hc).forall hf hg hne

/-- The codes of a covered register determine its byte. -/
theorem covered_byte_ext {a b : Byte} (h : ∀ f ∈ registerRows l r, getField a f = getField b f) : a = b := by
  apply BitVec.eq_of_getLsbD_eq
  intro i hi
  obtain ⟨f, hf, hbit⟩ := covered_exists_row hc hi
  obtain ⟨hlo, -⟩ := rowHasBit_iff.mp hbit
  have hcode : (getField a f).getLsbD (i - f.lo) = (getField b f).getLsbD (i - f.lo) := by rw [h f hf]
  have hw : i - f.lo < fieldWidth f := by
    simpa [Nat.add_sub_cancel' hlo, hbit] using (rowHasBit_lo_add (covered_row_in_byte hc hf).1 (i - f.lo)).symm
  simpa [getLsbD_getField (show i - f.lo < 8 by omega), Nat.add_sub_cancel' hlo, hw] using hcode

end

/-- Settles O9: the four field laws, any two different rows of a covered register being disjoint. -/
theorem fieldLaws : Obligations.FieldLaws := by
  intro l r f g v x y hc hf hg
  obtain ⟨hflo, hfhi⟩ := covered_row_in_byte hc hf
  obtain ⟨hglo, hghi⟩ := covered_row_in_byte hc hg
  exact ⟨getField_setField_same hflo hfhi v x, setField_getField hflo v,
    fun hne => getField_setField_of_disjoint hflo hglo hghi (covered_disjoint hc hg hf hne) v x,
    setField_setField hflo v x y⟩

/-! ### The typed record (R163) -/

/-- SET of every entry in turn, each at its row. -/
def setEntries (acc : Byte) (entries : List (LayoutRow × FieldName × Byte)) : Byte :=
  entries.foldl (fun acc x => setField acc x.1 x.2.2) acc

theorem toByte_eq_setEntries (l : Layout) (r : RegName) (t : List (FieldName × Byte)) :
    toByte l r t = setEntries 0#8 ((registerRows l r).zip t) := rfl

@[simp] theorem setEntries_nil (acc : Byte) : setEntries acc [] = acc := rfl

@[simp] theorem setEntries_cons (acc : Byte) (x : LayoutRow × FieldName × Byte)
    (entries : List (LayoutRow × FieldName × Byte)) :
    setEntries acc (x :: entries) = setEntries (setField acc x.1 x.2.2) entries := rfl

/-- Setting entries whose rows are disjoint from a row leaves its code alone. -/
theorem getField_setEntries_of_disjoint {g : LayoutRow} (hg : g.lo ≤ g.hi) (h7 : g.hi ≤ 7)
    {entries : List (LayoutRow × FieldName × Byte)} (hrows : ∀ x ∈ entries, x.1.lo ≤ x.1.hi)
    (hd : ∀ x ∈ entries, RowsDisjoint g x.1) (acc : Byte) : getField (setEntries acc entries) g = getField acc g := by
  induction entries generalizing acc with
  | nil => rfl
  | cons x entries ih =>
    rw [List.forall_mem_cons] at hrows hd
    rw [setEntries_cons, ih hrows.2 hd.2, getField_setField_of_disjoint hrows.1 hg h7 hd.1]

/-- After SET of every entry at disjoint rows, each row holds the code of its entry. -/
theorem getField_setEntries {entries : List (LayoutRow × FieldName × Byte)}
    (hrows : ∀ x ∈ entries, x.1.lo ≤ x.1.hi ∧ x.1.hi ≤ 7) (hd : (entries.map Prod.fst).Pairwise RowsDisjoint)
    (acc : Byte) : ∀ x ∈ entries, getField (setEntries acc entries) x.1 = x.2.2 &&& fieldMask x.1 := by
  induction entries generalizing acc with
  | nil => exact fun _ h => (nomatch h)
  | cons e entries ih =>
    rw [List.forall_mem_cons] at hrows
    rw [List.map_cons, List.pairwise_cons, List.forall_mem_map] at hd
    obtain ⟨⟨hlo, hhi⟩, hrest⟩ := hrows
    refine List.forall_mem_cons.mpr ⟨?_, ih hrest hd.2 _⟩
    rw [setEntries_cons, getField_setEntries_of_disjoint hlo hhi (fun x hx => (hrest x hx).1) hd.1,
      getField_setField_same hlo hhi]

/-- GET gives no bit beyond the mask. -/
theorem getField_and_fieldMask (v : Byte) (f : LayoutRow) : getField v f &&& fieldMask f = getField v f := by
  rw [getField, BitVec.and_assoc, BitVec.and_self]

section
variable {l : Layout} {r : RegName} (hc : registerCovered l r = true)
include hc

/-- TO_BYTE gives each row of a covered register the code of its entry, at the row's width. -/
theorem getField_toByte {t : List (FieldName × Byte)} (hlen : t.length = (registerRows l r).length) :
    ∀ x ∈ (registerRows l r).zip t, getField (toByte l r t) x.1 = x.2.2 &&& fieldMask x.1 := by
  have hd : (((registerRows l r).zip t).map Prod.fst).Pairwise RowsDisjoint := by
    rw [List.map_fst_zip hlen.ge]
    exact covered_pairwise_disjoint hc
  rw [toByte_eq_setEntries]
  exact getField_setEntries (fun x hx => covered_row_in_byte hc (List.of_mem_zip hx).1) hd 0#8

theorem toByte_fromByte (b : Byte) : toByte l r (fromByte l r b) = b := by
  refine covered_byte_ext hc fun f hf => ?_
  have hx : (f, f.field, getField b f) ∈ (registerRows l r).zip (fromByte l r b) := by
    rw [fromByte, ← List.map_prod_left_eq_zip]
    exact List.mem_map_of_mem hf
  calc getField (toByte l r (fromByte l r b)) f
    _ = getField b f &&& fieldMask f := getField_toByte hc (List.length_map _) _ hx
    _ = getField b f := getField_and_fieldMask b f

/-- A record that names the register's fields, each with a code of its field's width, is what its byte is read as. -/
theorem fromByte_toByte {t : List (FieldName × Byte)} (hn : t.map Prod.fst = (registerRows l r).map LayoutRow.field)
    (hw : ∀ x ∈ (registerRows l r).zip t, x.2.2 &&& fieldMask x.1 = x.2.2) : fromByte l r (toByte l r t) = t := by
  have hlen : t.length = (registerRows l r).length := by simpa using congrArg List.length hn
  have hfst : ((registerRows l r).zip t).map Prod.fst = registerRows l r := List.map_fst_zip hlen.ge
  have hsnd : ((registerRows l r).zip t).map Prod.snd = t := List.map_snd_zip hlen.le
  have hentry : ∀ x ∈ (registerRows l r).zip t, (x.1.field, getField (toByte l r t) x.1) = x.2 := by
    have hname : ∀ x ∈ (registerRows l r).zip t, x.2.1 = x.1.field := by
      rw [← hfst, ← congrArg (List.map Prod.fst) hsnd, List.map_map, List.map_map] at hn
      exact List.map_inj_left.mp hn
    exact fun x hx => Prod.ext (hname x hx).symm ((getField_toByte hc hlen x hx).trans (hw x hx))
  calc fromByte l r (toByte l r t)
    _ = (((registerRows l r).zip t).map Prod.fst).map fun f => (f.field, getField (toByte l r t) f) := by
        rw [hfst, fromByte]
    _ = ((registerRows l r).zip t).map Prod.snd := by rw [List.map_map]; exact List.map_inj_left.mpr hentry
    _ = t := hsnd

end

/-- Settles O10: both round trips of the typed register value. -/
theorem fieldRecordsAndBytesRoundTrip : Obligations.FieldRecordsAndBytesRoundTrip :=
  fun _ _ hc => ⟨toByte_fromByte hc, fun _ => fromByte_toByte hc⟩

end Sys2Proof.Machine
end

section
/-!
Variant equivalence of the bundle requests (R261). A discrete and a batched run of one request are compared phase by phase:
`Alike s n d b` relates where they stand after n phases, and four frames exchanged one by one take the discrete run to the
next phase as the same four frames in one exchange take the batched one.
-/

namespace Sys2Proof.Machine

/-! ### What answered exchanges leave -/

/-- The result record after one exchange: the frames sent, and the response to them (R150). -/
def recordReply (r : Result) (x : List Byte × Bytes8) : Result :=
  recordStatuses (statusBytes x.1.length x.2) { r with nexch := r.nexch + 1#4 }

/-- The exchanges xs led from s to t, and rest is what the transport answers next. -/
structure Exchanged (xs : List (List Byte × Bytes8)) (rest : List BusReply) (s t : State) : Prop where
  transport : t.transport = rest
  req : t.req = s.req
  history : t.history = s.history ++ xs.map fun x => .exchange x.1
  res : t.res = xs.foldl recordReply s.res

theorem Exchanged.trans {xs ys : List (List Byte × Bytes8)} {rest rest' : List BusReply} {s t u : State}
    (h : Exchanged xs rest s t) (h' : Exchanged ys rest' t u) : Exchanged (xs ++ ys) rest' s u where
  transport := h'.transport
  req := h'.req.trans h.req
  history := by rw [h'.history, h.history, List.append_assoc, List.map_append]
  res := by rw [h'.res, h.res, List.foldl_append]

/-- Keeping a byte of the bundle is no part of an exchange. -/
theorem Exchanged.setBundle {xs : List (List Byte × Bytes8)} {rest : List BusReply} {s t : State}
    (h : Exchanged xs rest s t) (i : Nat) (v : Byte) : Exchanged xs rest s (setBundle i v t) :=
  ⟨h.transport, h.req, h.history, h.res⟩

theorem exchanged_recordExchange (sent : List Byte) (received : Bytes8) (rest : List BusReply) (s : State) :
    Exchanged [(sent, received)] rest s
      (recordExchange sent.length received { issue (.exchange sent) s with transport := rest }) :=
  ⟨rfl, rfl, rfl, rfl⟩

theorem Exchanged.wcfg {x : List Byte × Bytes8} {rest : List BusReply} {s t : State} (h : Exchanged [x] rest s t) :
    t.res.wcfg = s.res.wcfg := by
  simp [h.res, recordReply]

/-! ### One stage on a good response (R145, R146, R151) -/

section
variable {s : State} {received : Bytes8} {rest : List BusReply}

theorem runStages_xread (addr : State → Nat) (keep : Byte → State → State) (h : s.transport = .ok received :: rest) :
    ∃ t, (∀ gs, runStages (xread addr keep :: gs) s = runStages gs (keep received[1] t))
      ∧ Exchanged [(frameRead (addr s), received)] rest s t ∧ t.bundle = s.bundle := by
  refine ⟨_, fun gs => ?_, exchanged_recordExchange _ received rest s, rfl⟩
  rw [runStages_exchange_ok (g := xread addr keep) rfl h]
  simp [xread, byteAt_loadRx, frameRead]

theorem runStages_xwrite (addr : State → Nat) (v : State → Byte) (h : s.transport = .ok received :: rest) :
    ∃ t, (∀ gs, runStages (xwrite addr v :: gs) s = runStages gs t)
      ∧ Exchanged [(frameWrite (addr s) (v s), received)] rest s t :=
  ⟨_, fun _ => runStages_exchange_ok rfl h, exchanged_recordExchange _ received rest s⟩

theorem runStages_xbatch (tx8 : State → List Byte) (keep : Byte → Byte → Byte → Byte → State → State)
    (hl : (tx8 s).length = 8) (h : s.transport = .ok received :: rest) :
    ∃ t, (∀ gs, runStages (xbatch tx8 keep :: gs) s
        = runStages gs (keep received[1] received[3] received[5] received[7] t))
      ∧ Exchanged [(tx8 s, received)] rest s t := by
  refine ⟨_, fun gs => ?_, exchanged_recordExchange _ received rest s⟩
  rw [runStages_exchange_ok (g := xbatch tx8 keep) rfl h]
  simp [xbatch, hl, byteAt_loadRx]

end

/-! ### A phase on good responses (R262, R265) -/

section
variable {s : State} {r0 r1 r2 r3 rx : Bytes8} {rest : List BusReply}

theorem runStages_readPhase_discrete (keep : Cfg → State → State)
    (h : s.transport = .ok r0 :: .ok r1 :: .ok r2 :: .ok r3 :: rest) :
    ∃ t, (∀ gs, runStages (readPhase false keep ++ gs) s
        = runStages gs (keep (configPack r0[1] r1[1] r2[1] r3[1]) t))
      ∧ Exchanged (bundleReadFrames.zip [r0, r1, r2, r3]) rest s t := by
  obtain ⟨t0, e0, x0, b0⟩ := runStages_xread (fun _ => bundleAddr 0) (setBundle 0) h
  have y0 := x0.setBundle 0 r0[1]
  obtain ⟨t1, e1, x1, b1⟩ := runStages_xread (fun _ => bundleAddr 1) (setBundle 1) y0.transport
  have y1 := x1.setBundle 1 r1[1]
  obtain ⟨t2, e2, x2, b2⟩ := runStages_xread (fun _ => bundleAddr 2) (setBundle 2) y1.transport
  have y2 := x2.setBundle 2 r2[1]
  obtain ⟨t3, e3, x3, b3⟩ := runStages_xread (fun _ => bundleAddr 3)
    (fun v s => keep (packBundle (setBundle 3 v s)) (setBundle 3 v s)) y2.transport
  have hp : packBundle (setBundle 3 r3[1] t3) = configPack r0[1] r1[1] r2[1] r3[1] := by
    simp [packBundle, b1, b2, b3]
  refine ⟨setBundle 3 r3[1] t3, fun gs => ?_, ((y0.trans y1).trans y2).trans (x3.setBundle 3 r3[1])⟩
  rw [← hp]
  exact (e0 _).trans ((e1 _).trans ((e2 _).trans (e3 gs)))

theorem runStages_readPhase_batched (keep : Cfg → State → State) (h : s.transport = .ok rx :: rest) :
    ∃ t, (∀ gs, runStages (readPhase true keep ++ gs) s
        = runStages gs (keep (configPack rx[1] rx[3] rx[5] rx[7]) t))
      ∧ Exchanged [(bundleReadFrames.flatten, rx)] rest s t :=
  runStages_xbatch (fun _ => batchReadBytes) (fun b0 b1 b2 b3 s => keep (configPack b0 b1 b2 b3) s) rfl h

theorem runStages_writePhase_discrete (h : s.transport = .ok r0 :: .ok r1 :: .ok r2 :: .ok r3 :: rest) :
    ∃ t, (∀ gs, runStages (writePhase false ++ gs) s = runStages gs t)
      ∧ Exchanged ((bundleWriteFrames s.res.wcfg).zip [r0, r1, r2, r3]) rest s t := by
  obtain ⟨t0, e0, x0⟩ := runStages_xwrite (fun _ => bundleAddr 0) (fun s => cfgByte s.res.wcfg 0) h
  obtain ⟨t1, e1, x1⟩ := runStages_xwrite (fun _ => bundleAddr 1) (fun s => cfgByte s.res.wcfg 1) x0.transport
  obtain ⟨t2, e2, x2⟩ := runStages_xwrite (fun _ => bundleAddr 2) (fun s => cfgByte s.res.wcfg 2) x1.transport
  obtain ⟨t3, e3, x3⟩ := runStages_xwrite (fun _ => bundleAddr 3) (fun s => cfgByte s.res.wcfg 3) x2.transport
  refine ⟨t3, fun gs => (e0 _).trans ((e1 _).trans ((e2 _).trans (e3 gs))), ?_⟩
  have h1 : t0.res.wcfg = s.res.wcfg := x0.wcfg
  have h2 : t1.res.wcfg = s.res.wcfg := x1.wcfg.trans h1
  have h3 : t2.res.wcfg = s.res.wcfg := x2.wcfg.trans h2
  simp only [h1, h2, h3] at x1 x2 x3
  exact ((x0.trans x1).trans x2).trans x3

theorem runStages_writePhase_batched (h : s.transport = .ok rx :: rest) :
    ∃ t, (∀ gs, runStages (writePhase true ++ gs) s = runStages gs t)
      ∧ Exchanged [((bundleWriteFrames s.res.wcfg).flatten, rx)] rest s t :=
  runStages_xbatch (fun s => batchWriteBytes s.res.wcfg) (fun _ _ _ _ s => s) rfl h

end

/-! ### Four frames one by one, and together -/

/-- Recording status bytes neither reads nor writes the count of exchanges. -/
theorem recordStatuses_with_nexch (cs : List Byte) (r : Result) (n : BitVec 4) :
    recordStatuses cs { r with nexch := n } = { recordStatuses cs r with nexch := n } := by
  induction cs generalizing r with
  | nil => rfl
  | cons c cs ih => rw [recordStatuses, recordStatuses, ← ih]

/-- Four frames exchanged one by one leave the record that one exchange of them all leaves, but for the count of exchanges
(R75, R150, R261). -/
theorem foldl_recordReply_batch {f0 f1 f2 f3 : List Byte} (l0 : f0.length = 2) (l1 : f1.length = 2) (l2 : f2.length = 2)
    (l3 : f3.length = 2) (r0 r1 r2 r3 : Bytes8) (r : Result) (n : BitVec 4) :
    ([f0, f1, f2, f3].zip [r0, r1, r2, r3]).foldl recordReply { r with nexch := n }
      = { recordReply r ([f0, f1, f2, f3].flatten, batchOf r0 r1 r2 r3) with nexch := n + 4#4 } := by
  have hl : [f0, f1, f2, f3].flatten.length = 8 := by simp [l0, l1, l2, l3]
  have hn : n + 1#4 + 1#4 + 1#4 + 1#4 = n + 4#4 := by simp [BitVec.add_assoc]
  simp only [List.zip_cons_cons, List.zip_nil_left, List.foldl, recordReply, l0, l1, l2, l3, hl, statusBytes_two,
    statusBytes_eight, recordStatuses_with_nexch, hn]
  rfl

/-! ### The two runs side by side -/

/-- Where a discrete run d and a batched run b of one request stand after n phases, s being where both began: they have put
the same bytes on the wire, in four exchanges of 2 bytes or one of 8 for each phase, and their latch and result are the
same but for the count of exchanges (R261). -/
structure Alike (s : State) (n : Nat) (d b : State) : Prop where
  req : d.req = b.req
  res : d.res = { b.res with nexch := BitVec.ofNat 4 (4 * n) }
  nexch : b.res.nexch = BitVec.ofNat 4 n
  events : ∃ hd hb, d.history = s.history ++ hd ∧ b.history = s.history ++ hb ∧ wireBytes hd = wireBytes hb
    ∧ hd.map (fun e => (eventBytes e).length) = List.replicate (4 * n) 2
    ∧ hb.map (fun e => (eventBytes e).length) = List.replicate n 8

namespace Alike
variable {s d b d' b' : State} {n : Nat}

/-- What issues no event, counts no exchange and writes the same to both results keeps the runs alike. -/
theorem of_quiet (h : Alike s n d b) (hq : d'.req = b'.req) (hd : d'.history = d.history) (hb : b'.history = b.history)
    (hr : d'.res = { b'.res with nexch := d.res.nexch }) (hn : b'.res.nexch = b.res.nexch) : Alike s n d' b' where
  req := hq
  res := by rw [hr, h.res]
  nexch := hn.trans h.nexch
  events := by rw [hd, hb]; exact h.events

theorem setCfg (h : Alike s n d b) (c : Cfg) : Alike s n (setCfg c d) (setCfg c b) :=
  h.of_quiet h.req rfl rfl (by simp [h.res]) rfl

theorem setWcfg (h : Alike s n d b) (c : Cfg) : Alike s n (setWcfg c d) (setWcfg c b) :=
  h.of_quiet h.req rfl rfl (by simp [h.res]) rfl

theorem complete (h : Alike s n d b) : Alike s n (complete .ok false d) (complete .ok false b) :=
  h.of_quiet h.req rfl rfl (by simp [h.res]) rfl

theorem wcfg (h : Alike s n d b) : d.res.wcfg = b.res.wcfg := by rw [h.res]

/-- Four frames exchanged one by one, and together, lead to the next phase. -/
theorem exchanged {fs : List (List Byte)} {r0 r1 r2 r3 : Bytes8} {rest more : List BusReply} (h : Alike s n d b)
    (hl : fs.map List.length = [2, 2, 2, 2]) (hd : Exchanged (fs.zip [r0, r1, r2, r3]) rest d d')
    (hb : Exchanged [(fs.flatten, batchOf r0 r1 r2 r3)] more b b') : Alike s (n + 1) d' b' := by
  obtain ⟨f0, f1, f2, f3, rfl⟩ : ∃ f0 f1 f2 f3, fs = [f0, f1, f2, f3] :=
    List.length_eq_four.1 (by simpa using congrArg List.length hl)
  simp only [List.map_cons, List.map_nil, List.cons.injEq, and_true] at hl
  obtain ⟨l0, l1, l2, l3⟩ := hl
  obtain ⟨esd, esb, hesd, hesb, hw, h2, h8⟩ := h.events
  refine ⟨by rw [hd.req, hb.req, h.req], ?_, ?_, esd ++ [f0, f1, f2, f3].map .exchange,
    esb ++ [.exchange [f0, f1, f2, f3].flatten], ?_, ?_, ?_, ?_, ?_⟩
  · rw [hd.res, hb.res, h.res, foldl_recordReply_batch l0 l1 l2 l3, Nat.mul_succ, BitVec.ofNat_add]
    rfl
  · simp [hb.res, recordReply, h.nexch, BitVec.ofNat_add]
  · simp [hd.history, hesd]
  · simp [hb.history, hesb]
  · simp only [wireBytes, List.flatMap_append] at hw ⊢
    simp [hw, eventBytes]
  · rw [List.map_append, h2, Nat.mul_succ, List.replicate_add]
    simp [eventBytes, l0, l1, l2, l3]
  · rw [List.map_append, h8, List.replicate_add]
    simp [eventBytes, l0, l1, l2, l3]

section
variable {r0 r1 r2 r3 : Bytes8} {rest more : List BusReply}

/-- A read phase of both runs. -/
theorem readPhase (h : Alike s n d b) {keep : Cfg → State → State}
    (hk : ∀ c d b, Alike s (n + 1) d b → Alike s (n + 1) (keep c d) (keep c b))
    (ht : ∀ c t, (keep c t).transport = t.transport)
    (hd : d.transport = .ok r0 :: .ok r1 :: .ok r2 :: .ok r3 :: rest)
    (hb : b.transport = .ok (batchOf r0 r1 r2 r3) :: more) :
    ∃ d' b', (∀ gs, runStages (readPhase false keep ++ gs) d = runStages gs d')
      ∧ (∀ gs, runStages (readPhase true keep ++ gs) b = runStages gs b')
      ∧ d'.transport = rest ∧ b'.transport = more ∧ Alike s (n + 1) d' b' := by
  obtain ⟨d', ed, xd⟩ := runStages_readPhase_discrete keep hd
  obtain ⟨b', eb, xb⟩ := runStages_readPhase_batched keep hb
  exact ⟨_, _, ed, eb, (ht _ _).trans xd.transport, (ht _ _).trans xb.transport, hk _ _ _ (h.exchanged rfl xd xb)⟩

/-- A write phase of both runs. -/
theorem writePhase (h : Alike s n d b) (hd : d.transport = .ok r0 :: .ok r1 :: .ok r2 :: .ok r3 :: rest)
    (hb : b.transport = .ok (batchOf r0 r1 r2 r3) :: more) :
    ∃ d' b', (∀ gs, runStages (writePhase false ++ gs) d = runStages gs d')
      ∧ (∀ gs, runStages (writePhase true ++ gs) b = runStages gs b') ∧ Alike s (n + 1) d' b' := by
  obtain ⟨d', ed, xd⟩ := runStages_writePhase_discrete hd
  obtain ⟨b', eb, xb⟩ := runStages_writePhase_batched hb
  rw [h.wcfg] at xd
  exact ⟨d', b', ed, eb, h.exchanged rfl xd xb⟩

end
end Alike

/-! ### The requests -/

/-- s with batched transfers and other transport answers. -/
def batchedTwin (s : State) (replies : List BusReply) : State :=
  { s with params := { s.params with batched := true }, transport := replies }

/-- Acceptance leaves both variants alike. -/
theorem alike_latch (r : Request) (s : State) (replies : List BusReply) :
    Alike s 0 (latch r s) (latch r (batchedTwin s replies)) :=
  ⟨rfl, rfl, rfl, [], [], by simp, by simp [batchedTwin], rfl, rfl, rfl⟩

section
variable {s : State} {r : Request} {r0 r1 r2 r3 w0 w1 w2 w3 : Bytes8} {rest : List BusReply}
  (hs : s.phase = .idle) (hb : s.params.batched = false) (hv : validate r.header = none)
include hs hb hv

theorem alike_readConfig (more : List BusReply) (ht : s.transport = .ok r0 :: .ok r1 :: .ok r2 :: .ok r3 :: rest) :
    Alike s 1 (acceptRequest r readConfigProgram s)
      (acceptRequest r readConfigProgram (batchedTwin s (.ok (batchOf r0 r1 r2 r3) :: more))) := by
  rw [acceptRequest_valid _ hs hv, acceptRequest_valid _ (show (batchedTwin s _).phase = .idle from hs) hv]
  obtain ⟨d, b, ed, eb, -, -, h⟩ := (alike_latch r s _).readPhase (fun c _ _ h => h.setCfg c) (fun _ _ => rfl) ht
    (rfl : (batchedTwin s (.ok (batchOf r0 r1 r2 r3) :: more)).transport = _)
  convert h.complete
  · simpa [readConfigProgram, hb] using ed []
  · simpa [readConfigProgram, batchedTwin] using eb []

theorem alike_writeConfig (more : List BusReply) (ht : s.transport = .ok r0 :: .ok r1 :: .ok r2 :: .ok r3 :: rest) :
    Alike s 1 (acceptRequest r writeConfigProgram s)
      (acceptRequest r writeConfigProgram (batchedTwin s (.ok (batchOf r0 r1 r2 r3) :: more))) := by
  rw [acceptRequest_valid _ hs hv, acceptRequest_valid _ (show (batchedTwin s _).phase = .idle from hs) hv]
  obtain ⟨d, b, ed, eb, h⟩ := ((alike_latch r s _).setWcfg r.cfg).writePhase ht
    (rfl : (batchedTwin s (.ok (batchOf r0 r1 r2 r3) :: more)).transport = _)
  convert h.complete
  · simpa [writeConfigProgram, hb, latchOf] using ed []
  · simpa [writeConfigProgram, batchedTwin, latchOf] using eb []

theorem alike_modifyConfig (more : List BusReply)
    (ht : s.transport = .ok r0 :: .ok r1 :: .ok r2 :: .ok r3 :: .ok w0 :: .ok w1 :: .ok w2 :: .ok w3 :: rest) :
    Alike s 2 (acceptRequest r modifyConfigProgram s) (acceptRequest r modifyConfigProgram
      (batchedTwin s (.ok (batchOf r0 r1 r2 r3) :: .ok (batchOf w0 w1 w2 w3) :: more))) := by
  rw [acceptRequest_valid _ hs hv, acceptRequest_valid _ (show (batchedTwin s _).phase = .idle from hs) hv]
  obtain ⟨d, b, ed, eb, td, tb, h⟩ := (alike_latch r s _).readPhase
    (keep := fun c t => setWcfg (latchCfgFn t.req c) (setCfg c t))
    (fun c d b h => by simpa only [h.req] using (h.setCfg c).setWcfg (latchCfgFn b.req c)) (fun _ _ => rfl) ht
    (rfl : (batchedTwin s (.ok (batchOf r0 r1 r2 r3) :: .ok (batchOf w0 w1 w2 w3) :: more)).transport = _)
  obtain ⟨d', b', ed', eb', h'⟩ := h.writePhase td tb
  convert h'.complete
  · simpa [modifyConfigProgram, hb] using (ed _).trans (ed' [])
  · simpa [modifyConfigProgram, batchedTwin] using (eb _).trans (eb' [])

end

theorem validate_recordCfgFn (f : Transform 32) (r : Request) :
    validate (recordCfgFn 0x6000#16 f r).header = none := by
  cases f <;> exact validate_modifyConfig

/-- READ_CONFIG and both spellings of WRITE_CONFIG come to the acceptance of the same record in either variant. -/
theorem exec_bundle_batchedTwin {i : Instr} {c : Cfg} {s : State} (hi : i = .readConfig ∨ SpellsWriteConfig s.params c i)
    (replies : List BusReply) :
    ∃ r p, validate r.header = none ∧ (p = readConfigProgram ∨ p = writeConfigProgram)
      ∧ exec i s = .next (acceptRequest r p s)
      ∧ exec i (batchedTwin s replies) = .next (acceptRequest r p (batchedTwin s replies)) := by
  rcases hi with rfl | rfl | ⟨rfl, rfl⟩
  · exact ⟨recordBare 0x4000#16 (offered s), _, validate_readConfig, .inl rfl, rfl, rfl⟩
  · exact ⟨recordCfg 0x5000#16 c (offered s), _, validate_writeConfig, .inr rfl, rfl, rfl⟩
  · exact ⟨recordCfg 0x5000#16 _ (offered s), _, validate_writeConfig, .inr rfl, rfl, rfl⟩

/-- Settles O51: the runs of each bundle request are alike once it has ended, after one phase or, for MODIFY_CONFIG, two. -/
theorem batchedAndDiscreteBundlesAgree : Obligations.BatchedAndDiscreteBundlesAgree := by
  constructor
  · intro i c s r0 r1 r2 r3 rest more hs hi hb ht
    obtain ⟨r, p, hv, hp, et, eu⟩ := exec_bundle_batchedTwin hi (.ok (batchOf r0 r1 r2 r3) :: more)
    have h : Alike s 1 (acceptRequest r p s) (acceptRequest r p (batchedTwin s (.ok (batchOf r0 r1 r2 r3) :: more))) := by
      rcases hp with rfl | rfl
      · exact alike_readConfig hs hb hv more ht
      · exact alike_writeConfig hs hb hv more ht
    obtain ⟨esd, esb, hd, hb, hw, h2, h8⟩ := h.events
    exact ⟨_, _, esd, esb, et, eu, hd, hb, hw, h2, h8, h.res, h.nexch⟩
  · intro f s r0 r1 r2 r3 w0 w1 w2 w3 rest more hs hb ht
    have h := alike_modifyConfig hs hb (validate_recordCfgFn f (offered s)) more ht
    obtain ⟨esd, esb, hd, hb, hw, h2, h8⟩ := h.events
    exact ⟨_, _, esd, esb, rfl, rfl, hd, hb, hw, h2, h8, h.res, h.nexch⟩

end Sys2Proof.Machine
end

section
/-!
The unused pins (R310, R340). `withLines x y` puts other levels on DISABLE and nFAULT; that the block neither drives nor
reads them is that every operation of a step commutes with it, from taking an answer up to the step itself.
-/

namespace Sys2Proof.Machine

open Function (Commute)

/-- s with other levels on DISABLE and nFAULT. -/
def withLines (x y : Option PinLevel) (s : State) : State := { s with disableLine := x, faultLine := y }

/-- The same answer, its state with other levels on the two lines. -/
def Answer.withLines (x y : Option PinLevel) : Answer → Answer
  | .waiting s => .waiting (Machine.withLines x y s)
  | .failed e wrote s => .failed e wrote (Machine.withLines x y s)
  | .answered s => .answered (Machine.withLines x y s)

section Lines

variable {x y : Option PinLevel}

/-! ### Issuing an event and taking its answer -/

theorem issue_withLines (e : Event) : Commute (issue e) (withLines x y) := by
  intro s
  cases e <;> rfl

theorem takeBusReply_withLines : Commute takeBusReply (withLines x y) := by
  intro s
  cases h : s.transport <;> simp [takeBusReply, withLines, h]

theorem takePinReply_withLines : Commute takePinReply (withLines x y) := by
  intro s
  cases h : s.sleepPin <;> simp [takePinReply, withLines, h]

theorem takeDelayReply_withLines : Commute takeDelayReply (withLines x y) := by
  intro s
  cases h : s.delay <;> simp [takeDelayReply, withLines, h]

/-- The answer to an event is the environment's alone: the lines have no part in it. -/
theorem awaitAnswer_withLines (e : Event) (s : State) :
    awaitAnswer e (withLines x y s) = (awaitAnswer e s).withLines x y := by
  cases e with
  | exchange sent =>
    have hr : nextBusReply (withLines x y s) = nextBusReply s := rfl
    simp only [awaitAnswer, hr, takeBusReply_withLines s]
    cases nextBusReply s <;> rfl
  | pinSet l =>
    have hr : nextPinReply (withLines x y s) = nextPinReply s := rfl
    simp only [awaitAnswer, hr, takePinReply_withLines s]
    cases nextPinReply s <;> rfl
  | delay us =>
    have hr : nextDelayReply (withLines x y s) = nextDelayReply s := rfl
    simp only [awaitAnswer, hr, takeDelayReply_withLines s]
    cases nextDelayReply s <;> rfl

/-! ### The stages of a request -/

/-- What follows each exchange of a read phase, if what takes the configuration commutes. -/
theorem readPhase_withLines {keep : Cfg → State → State} (batched : Bool)
    (hk : ∀ c, Commute (keep c) (withLines x y)) :
    ∀ g ∈ readPhase batched keep, Commute g.done (withLines x y) := by
  cases batched <;> simp only [readPhase, Bool.false_eq_true, if_false, if_true, List.forall_mem_cons]
  · refine ⟨fun _ => rfl, fun _ => rfl, fun _ => rfl, fun s => ?_, List.forall_mem_nil _⟩
    exact hk (packBundle (setBundle 3 (byteAt s.rx 1) s)) (setBundle 3 (byteAt s.rx 1) s)
  · exact ⟨fun s => hk (configPack (byteAt s.rx 1) (byteAt s.rx 3) (byteAt s.rx 5) (byteAt s.rx 7)) s,
      List.forall_mem_nil _⟩

/-- Nothing follows an exchange of a write phase. -/
theorem writePhase_withLines (batched : Bool) : ∀ g ∈ writePhase batched, Commute g.done (withLines x y) := by
  cases batched <;> simp only [writePhase, Bool.false_eq_true, if_false, if_true, List.forall_mem_cons]
  · exact ⟨fun _ => rfl, fun _ => rfl, fun _ => rfl, fun _ => rfl, List.forall_mem_nil _⟩
  · exact ⟨fun _ => rfl, List.forall_mem_nil _⟩

theorem powerStages_withLines (l : PinLevel) (wait : State → Nat) (z : SleepState) :
    ∀ g ∈ powerStages l wait z, Commute g.done (withLines x y) :=
  List.forall_mem_cons.2 ⟨fun _ => rfl, List.forall_mem_singleton.2 fun _ => rfl⟩

/-- What a request does once an event has returned neither drives nor reads the lines. -/
theorem stages_withLines {o : BitVec 4} {p : Program} (h : programOf o = some p) (s : State) :
    ∀ g ∈ p.stages s, Commute g.done (withLines x y) := by
  cases o, p, h using programOf_elim with
  | readReg => exact List.forall_mem_singleton.2 fun _ => rfl
  | writeReg => exact List.forall_mem_singleton.2 fun _ => rfl
  | modifyReg => exact List.forall_mem_cons.2 ⟨fun _ => rfl, List.forall_mem_singleton.2 fun _ => rfl⟩
  | readConfig => exact readPhase_withLines _ fun _ _ => rfl
  | writeConfig => exact writePhase_withLines _
  | modifyConfig =>
    exact List.forall_mem_append.2 ⟨readPhase_withLines _ fun _ _ => rfl, writePhase_withLines _⟩
  | clearFault => exact List.forall_mem_cons.2 ⟨fun _ => rfl, List.forall_mem_singleton.2 fun _ => rfl⟩
  | awaken =>
    simp only [awakenProgram]
    split
    · simp
    · exact powerStages_withLines _ _ _
  | sleep =>
    simp only [sleepProgram]
    split
    · simp
    · exact powerStages_withLines _ _ _

theorem start_withLines {o : BitVec 4} {p : Program} (h : programOf o = some p) :
    Commute p.start (withLines x y) := by
  cases o, p, h using programOf_elim <;> exact fun _ => rfl

/-! ### Runs, resumptions and steps -/

/-- A run of stages that obey the stage laws and commute. The laws say what each stage's event is read from: the
parameters, the latch and the result. -/
theorem runStages_withLines {gs : List Stage} (hl : ∀ g ∈ gs, StageLaws g)
    (hd : ∀ g ∈ gs, Commute g.done (withLines x y)) : Commute (runStages gs) (withLines x y) := by
  induction gs with
  | nil => exact fun _ => rfl
  | cons g gs ih =>
    rw [List.forall_mem_cons] at hl hd
    intro s
    have he : g.event (withLines x y s) = g.event s := hl.1.event_ext s _ rfl rfl rfl
    simp only [runStages, he, issue_withLines _ s, awaitAnswer_withLines]
    cases awaitAnswer (g.event s) (issue (g.event s) s) with
    | waiting t => rfl
    | failed e w t => rfl
    | answered t => simp only [Answer.withLines, hd.1 t, ih hl.2 hd.2 (g.done t)]

/-- The run of an accepted request. -/
theorem accepted_withLines {r : Request} {p : Program} {o : BitVec 4} (h : programOf o = some p) (s : State) :
    runStages (p.stages (latch r (withLines x y s))) (p.start (latch r (withLines x y s)))
      = withLines x y (runStages (p.stages (latch r s)) (p.start (latch r s))) := by
  have hlatch : latch r (withLines x y s) = withLines x y (latch r s) := rfl
  have hstages : p.stages (withLines x y (latch r s)) = p.stages (latch r s) := stages_ext h rfl rfl
  rw [hlatch, hstages, start_withLines h, runStages_withLines (stageLaws h _) (stages_withLines h _)]

theorem resume_withLines {p : Program} {o : BitVec 4} (h : programOf o = some p) :
    Commute (resume p) (withLines x y) := by
  intro s
  have hst : p.stages (withLines x y s) = p.stages s := stages_ext h rfl rfl
  have hrun : ∀ gs, gs <:+ p.stages s → Commute (runStages gs) (withLines x y) := fun gs hs =>
    runStages_withLines (fun g hg => stageLaws h s g (hs.subset hg)) fun g hg => stages_withLines h s g (hs.subset hg)
  have ho : (withLines x y s).outstanding = s.outstanding := rfl
  have hk : (withLines x y s).k = s.k := rfl
  simp only [resume, ho, hk, hst]
  cases s.outstanding with
  | none => exact hrun _ (List.drop_suffix _ _) s
  | some e =>
    simp only [awaitAnswer_withLines]
    cases awaitAnswer e s with
    | waiting t => rfl
    | failed err w t => rfl
    | answered t =>
      simp only [Answer.withLines]
      cases hd : (p.stages s).drop (s.k.toNat - 1) with
      | nil => rfl
      | cons g gs =>
        have hs : g :: gs <:+ p.stages s := hd ▸ List.drop_suffix _ _
        simp only [stages_withLines h s g (hs.subset List.mem_cons_self) t,
          hrun gs ((List.suffix_cons g gs).trans hs) (g.done t)]

/-- A step with other levels on the lines does the same. -/
theorem step_withLines {s t : State} (h : step s = .next t) : step (withLines x y s) = .next (withLines x y t) := by
  rcases step_cases h with ⟨hs, ho, rfl⟩ | ⟨hs, r, more, sub, ho, hv, rfl⟩ | ⟨hs, r, more, p, ho, hv, hp, rfl⟩
    | ⟨hs, p, hp, rfl⟩
  · simp only [step, show (withLines x y t).phase = .idle from hs, show (withLines x y t).offers = [] from ho]
  · rcases step_offer (s := withLines x y s) hs ho with ⟨sub', hv', hx⟩ | ⟨hv', -⟩
    · obtain rfl : sub = sub' := by simpa [hv] using hv'
      exact hx
    · simp [hv] at hv'
  · rcases step_offer (s := withLines x y s) hs ho with ⟨sub', hv', -⟩ | ⟨-, p', hp', hx⟩
    · simp [hv] at hv'
    · obtain rfl : p = p' := by simpa [hp] using hp'
      rw [hx, accepted_withLines hp]
  · have hb : step (withLines x y s) = .next (resume p (withLines x y s)) := by
      simp only [step, show (withLines x y s).phase = .busy from hs, continueBusy,
        show (withLines x y s).req = s.req from rfl, hp]
    rw [hb, resume_withLines hp s]

end Lines

/-- Settles O41: a step commutes with putting other levels on the two lines. -/
theorem theUnusedPinsDoNotInterfere : Obligations.TheUnusedPinsDoNotInterfere :=
  fun _ _ _ _ h => step_withLines h

end Sys2Proof.Machine
end

section
/-!
VALIDATE on every header (R333). `SortedAs v n` is the set of header numbers n that VALIDATE is to answer with v. Following
the checks puts every header in the set of its answer; the five sets being disjoint, each of them is met by no other answer.
-/

namespace Sys2Proof

/-! ### The fields of a header as numbers (R110) -/

theorem headerOpc_toNat (h : Header) : (headerOpc h).toNat = h.toNat / 0x1000 := by
  simp only [headerOpc, BitVec.extractLsb'_toNat, Nat.shiftRight_eq_div_pow]
  omega

theorem headerRsv_toNat (h : Header) : (headerRsv h).toNat = h.toNat / 0x20 % 0x80 := by
  simp only [headerRsv, BitVec.extractLsb'_toNat, Nat.shiftRight_eq_div_pow]

theorem headerAddr_toNat (h : Header) : (headerAddr h).toNat = h.toNat % 0x20 := by
  simp only [headerAddr, BitVec.extractLsb'_toNat, Nat.shiftRight_zero]

/-! ### The header numbers of each answer -/

/-- The header numbers that VALIDATE is to accept, and those it is to refuse with each sub-code (R332, R333). RSV has to
be 0 in every header of an assigned operation code, and from 0x4000 on, where no register is addressed, ADDR too. -/
def SortedAs : Option MisuseSub → Nat → Prop
  | none, n => n ∈ [0x1000, 0x1001, 0x1002, 0x1003, 0x1004, 0x1005, 0x2002, 0x2003, 0x2004, 0x2005,
      0x3002, 0x3003, 0x3004, 0x3005, 0x4000, 0x5000, 0x6000, 0x7000, 0x8000, 0x9000]
  | some .reservedOpc, n => n < 0x1000 ∨ 0xA000 ≤ n
  | some .addrRange, n =>
    (0x1006 ≤ n ∧ n ≤ 0x101F) ∨ (0x2006 ≤ n ∧ n ≤ 0x201F) ∨ (0x3006 ≤ n ∧ n ≤ 0x301F)
  | some .readOnly, n => n ∈ [0x2000, 0x2001, 0x3000, 0x3001]
  | some .reservedBits, n =>
    (0x1000 ≤ n ∧ n < 0x4000 ∧ 0x20 ≤ n % 0x1000) ∨ (0x4000 ≤ n ∧ n < 0xA000 ∧ n % 0x1000 ≠ 0)

theorem sortedAs_reservedBits_iff (n : Nat) : SortedAs (some .reservedBits) n ↔
    0x1000 ≤ n ∧ n < 0xA000 ∧ (if n < 0x4000 then 0x20 ≤ n % 0x1000 else n % 0x1000 ≠ 0) := by
  simp only [SortedAs]
  split <;> omega

/-- VALIDATE with its checks on the header's number. -/
theorem validate_toNat (h : Header) : validate h =
    if h.toNat / 0x1000 = 0 ∨ 0xA ≤ h.toNat / 0x1000 then some .reservedOpc
    else if h.toNat / 0x20 % 0x80 ≠ 0 then some .reservedBits
    else if h.toNat / 0x1000 = 1 then if 5 < h.toNat % 0x20 then some .addrRange else none
    else if h.toNat / 0x1000 = 2 ∨ h.toNat / 0x1000 = 3 then
      if 5 < h.toNat % 0x20 then some .addrRange else if h.toNat % 0x20 ≤ 1 then some .readOnly else none
    else if h.toNat % 0x20 ≠ 0 then some .reservedBits else none := by
  simp only [validate, ne_eq, ← BitVec.toNat_inj, headerOpc_toNat, headerRsv_toNat, headerAddr_toNat,
    BitVec.toNat_ofNat, Nat.reducePow, Nat.reduceMod]

/-- Following the checks in their order, every header is in the set of the answer it gets. -/
theorem sortedAs_validate (h : Header) : SortedAs (validate h) h.toNat := by
  rw [validate_toNat]
  generalize h.toNat = n
  split_ifs
  all_goals
    simp only [SortedAs, List.mem_cons, List.not_mem_nil, or_false]
    omega

/-- No number is in the sets of two answers. -/
theorem SortedAs.unique {v w : Option MisuseSub} {n : Nat} (hv : SortedAs v n) (hw : SortedAs w n) : v = w := by
  rcases v with _ | _ | _ | _ | _ <;> rcases w with _ | _ | _ | _ | _
  all_goals simp only [SortedAs, List.mem_cons, List.not_mem_nil, or_false] at hv hw ⊢ <;> omega

/-- VALIDATE answers v to the headers of the set of v, and to no others. -/
theorem validate_eq_iff (h : Header) (v : Option MisuseSub) : validate h = v ↔ SortedAs v h.toNat :=
  ⟨fun e => e ▸ sortedAs_validate h, (sortedAs_validate h).unique⟩

/-- Settles O5: each answer is given to exactly the headers of its set. -/
theorem validateSortsEveryHeader : Obligations.ValidateSortsEveryHeader := fun h =>
  ⟨validate_eq_iff h _, validate_eq_iff h _, validate_eq_iff h _, validate_eq_iff h _,
    (validate_eq_iff h _).trans (sortedAs_reservedBits_iff _)⟩

end Sys2Proof
end

section
/-!
The device-state-unknown flag (R334). The flag stays clear while a request runs, and only completion sets it: from the
failure of the event waited for, which is the last one issued. `LastSince h before last t` says which event that is at t,
counted from the history h with `before` outstanding.
-/

namespace Sys2Proof.Machine

/-- Since the history h, with `before` outstanding at that point, the last event issued is `last`. -/
def LastSince (h : List Event) (before last : Option Event) (t : State) : Prop :=
  ∃ es, t.history = h ++ es ∧ lastIssued before es = last

/-- R334 for a state t in which the last event issued is `last`. -/
def UnknownIffFailedWrite (last : Option Event) (t : State) : Prop :=
  t.res.dsu = true ↔
    t.res.err = .transport ∧ ∃ sent, last = some (.exchange sent) ∧ hasWriteFrame sent = true

/-- If the block is IDLE, the flag is as R334 has it for the events since h. -/
def UnknownAtEnd (h : List Event) (before : Option Event) (t : State) : Prop :=
  t.phase = .idle → ∃ last, LastSince h before last t ∧ UnknownIffFailedWrite last t

section Flag

variable {h : List Event} {before last : Option Event} {s t : State} {e : Event} {gs : List Stage}

/-! ### The last event issued -/

theorem LastSince.of_history (hl : LastSince h before last s) (ht : t.history = s.history) :
    LastSince h before last t := by
  rwa [LastSince, ht]

/-- Issuing an event makes it the last one. -/
theorem LastSince.issue (hl : LastSince h before last s) (e : Event) :
    LastSince h before (some e) (issue e s) := by
  obtain ⟨es, hes, -⟩ := hl
  exact ⟨es ++ [e], by simp [hes], by simp [lastIssued]⟩

/-- The last event is that of the very events by which the history has grown. -/
theorem LastSince.eq_lastIssued {es : List Event} (hl : LastSince h before last t) (he : t.history = h ++ es) :
    last = lastIssued before es := by
  obtain ⟨es', he', rfl⟩ := hl
  rw [List.append_cancel_left (he'.symm.trans he)]

/-! ### The flag at completion -/

/-- Without an error of the transport the flag keeps its clear value (R336). -/
theorem unknownIffFailedWrite_complete_ok (hd : s.res.dsu = false) :
    UnknownIffFailedWrite last (complete .ok false s) := by
  simp [UnknownIffFailedWrite, hd]

/-- The failure of an event sets the flag exactly if the event is an exchange that holds a write frame (R334, R336). -/
theorem unknownIffFailedWrite_complete_failed {x : Err} {w : Bool} (hd : s.res.dsu = false)
    (hA : awaitAnswer e s = .failed x w t) : UnknownIffFailedWrite (some e) (complete x w t) := by
  rcases awaitAnswer_failed hA with ⟨sent, rfl, -, rfl, rfl, rfl⟩ | ⟨l, rfl, -, rfl, rfl, rfl⟩
  · simp [UnknownIffFailedWrite, hd]
  · simp [UnknownIffFailedWrite, hd]

/-! ### The flag along a request -/

theorem answered_dsu (hA : awaitAnswer e s = .answered t) : t.res.dsu = s.res.dsu := by
  rcases awaitAnswer_answered hA with ⟨sent, received, -, -, rfl⟩ | ⟨l, -, -, rfl⟩ | ⟨us, -, -, rfl⟩ <;> simp

theorem start_dsu {o : BitVec 4} {p : Program} (hp : programOf o = some p) (s : State) :
    (p.start s).res.dsu = s.res.dsu := by
  cases o, p, hp using programOf_elim <;> rfl

/-- Between two events of a request: the flag is clear. -/
structure ClearBetween (h : List Event) (before : Option Event) (s : State) : Prop where
  clear : s.res.dsu = false
  issued : ∃ last, LastSince h before last s

/-- While an event is outstanding: the flag is clear, and that event is the last one issued. -/
structure ClearWaiting (h : List Event) (before : Option Event) (s : State) : Prop where
  clear : s.res.dsu = false
  issued : LastSince h before s.outstanding s

theorem ClearBetween.issue (hc : ClearBetween h before s) (e : Event) : ClearWaiting h before (issue e s) := by
  obtain ⟨last, hl⟩ := hc.issued
  exact ⟨by simpa using hc.clear, by simpa using hl.issue e⟩

theorem ClearWaiting.failed {x : Err} {w : Bool} (hc : ClearWaiting h before s) (ho : s.outstanding = some e)
    (hA : awaitAnswer e s = .failed x w t) : UnknownAtEnd h before (complete x w t) := by
  obtain ⟨-, -, -, -, hh, -⟩ := failed_keeps hA
  exact fun _ => ⟨some e, (ho ▸ hc.issued).of_history hh, unknownIffFailedWrite_complete_failed hc.clear hA⟩

theorem ClearWaiting.answered {g : Stage} (hg : StageLaws g) (hc : ClearWaiting h before s)
    (hA : awaitAnswer e s = .answered t) : ClearBetween h before (g.done t) := by
  obtain ⟨-, -, -, -, -, -, hh, -⟩ := answered_keeps hA
  exact ⟨by rw [hg.dsu, answered_dsu hA, hc.clear], _, hc.issued.of_history (by rw [hg.history, hh])⟩

/-- A wait that goes on leaves the block BUSY. -/
theorem Waiting.unknownAtEnd {g : Stage} (hw : Waiting g gs s) : UnknownAtEnd h before s :=
  fun hs => nomatch hs.symm.trans hw.busy

/-- A request that runs to its end from between two events. -/
theorem ClearBetween.runStages (hb : Between gs s) (hc : ClearBetween h before s) :
    UnknownAtEnd h before (runStages gs s) := by
  refine run_induct (P := fun _ => ClearBetween h before) (W := fun _ _ => ClearWaiting h before)
    ?atEnd ?issues ?waits ?fails ?goesOn gs s hb hc
  case atEnd =>
    intro s _ hc _
    obtain ⟨last, hl⟩ := hc.issued
    exact ⟨last, hl.of_history rfl, unknownIffFailedWrite_complete_ok hc.clear⟩
  case issues => exact fun g gs s _ hc => hc.issue _
  case waits => exact fun g gs s t hw _ hA => (waiting_waits hw hA).unknownAtEnd
  case fails => exact fun g gs s x w t hw hc hA => hc.failed hw.out hA
  case goesOn => exact fun g gs s t hw hc hA => hc.answered (hw.laws g List.mem_cons_self) hA

/-! ### Requests and steps -/

/-- A request that ends in the step that accepts it: its last event is the last of the history. -/
theorem accepted_unknownIffFailedWrite {i : Instr} (hi : IsRequest i) (hs : s.phase = .idle)
    (hx : exec i s = .next t) (ht : t.phase = .idle) : UnknownIffFailedWrite t.history.getLast? t := by
  obtain ⟨r, p, hr, hp⟩ := exec_accepts hi s
  obtain rfl : acceptRequest r p s = t := by simpa [hr] using hx
  cases hv : validate r.header with
  | some sub => simp [UnknownIffFailedWrite, acceptRequest_refused p hs hv, Result.cleared]
  | none =>
    rw [acceptRequest_valid p hs hv] at ht ⊢
    have hc : ClearBetween [] none (p.start (latch r s)) := ⟨start_dsu (hp hv) _, _, _, rfl, rfl⟩
    obtain ⟨last, hl, hu⟩ := hc.runStages (between_start hv (hp hv)) ht
    obtain rfl : last = _ := hl.eq_lastIssued rfl
    simpa [lastIssued] using hu

/-- A request that a later step ends: its last event may be the one outstanding before that step. -/
theorem resumed_unknownAtEnd (hi : SequencerInv s) (hr : ResultInv s) (hs : s.phase = .busy)
    (hx : step s = .next t) : UnknownAtEnd s.history s.outstanding t := by
  obtain ⟨-, -, hclear⟩ := hr.busyClear hs
  have hc : ClearWaiting s.history s.outstanding s := ⟨hclear, [], by simp, rfl⟩
  obtain ⟨p, hp, rfl⟩ : ∃ p, programOf s.req.opc = some p ∧ t = resume p s := by simpa [hs] using step_cases hx
  obtain ⟨g, gs, hw, hresume⟩ := waiting_of_inv hi hs
  rw [hresume p hp]
  cases hA : awaitAnswer (g.event s) s with
  | waiting t => exact (waiting_waits hw hA).unknownAtEnd
  | failed x w t => exact hc.failed hw.out hA
  | answered t => exact (hc.answered (hw.laws g List.mem_cons_self) hA).runStages (waiting_answered hw hA)

end Flag

/-- Settles O48: the flag at the end of a request, in the step that accepts it and in a later one. -/
theorem deviceStateIsUnknownExactlyAfterAFailedWrite :
    Obligations.DeviceStateIsUnknownExactlyAfterAFailedWrite := by
  refine ⟨fun i s t hi hs hx ht => accepted_unknownIffFailedWrite hi hs hx ht, ?_⟩
  intro s t es hi hr hs hx ht he
  obtain ⟨last, hl, hu⟩ := resumed_unknownAtEnd hi hr hs hx ht
  exact hl.eq_lastIssued he ▸ hu

end Sys2Proof.Machine
end

section
/-!
The event counts of a request (R391). What R391 counts of an event is its shape: the event with the contents of its frames
erased. The shapes of a request's events are known at acceptance, since nothing but the parameters and S decides them; a run
whose every event is answered issues events of those shapes and no others, so the table is read off the request's stages.
-/

namespace Sys2Proof.Machine

/-! ### The shape of an event -/

/-- The event with the contents of its frames erased. -/
def eventShape : Event → Event
  | .exchange sent => .exchange (List.replicate sent.length 0#8)
  | .pinSet l => .pinSet l
  | .delay us => .delay us

@[simp] theorem countEvents_exchange_cons (sent : List Byte) (es : List Event) :
    countEvents (.exchange sent :: es) = ((countEvents es).1 + 1, (countEvents es).2) := by
  simp [countEvents, List.countP_cons, isExchange]

@[simp] theorem countEvents_pinSet_cons (l : PinLevel) (es : List Event) :
    countEvents (.pinSet l :: es) = ((countEvents es).1, (countEvents es).2.1 + 1, (countEvents es).2.2) := by
  simp [countEvents, isExchange]

@[simp] theorem countEvents_delay_cons (us : Nat) (es : List Event) :
    countEvents (.delay us :: es) = ((countEvents es).1, (countEvents es).2.1, (countEvents es).2.2 + 1) := by
  simp [countEvents, isExchange]

@[simp] theorem countEvents_nil : countEvents [] = (0, 0, 0) := rfl

theorem countEvents_map_eventShape (es : List Event) : countEvents (es.map eventShape) = countEvents es := by
  induction es with
  | nil => rfl
  | cons e es ih => cases e <;> simp [eventShape, ih]

theorem length_wireBytes_map_eventShape (es : List Event) :
    (wireBytes (es.map eventShape)).length = (wireBytes es).length := by
  induction es with
  | nil => rfl
  | cons e es ih =>
    simp only [wireBytes, List.map_cons, List.flatMap_cons, List.length_append] at ih ⊢
    rw [ih]
    cases e <;> simp [eventShape, eventBytes]

theorem delay_mem_map_eventShape {us : Nat} {es : List Event} : .delay us ∈ es.map eventShape ↔ .delay us ∈ es := by
  refine ⟨fun h => ?_, fun h => List.mem_map.2 ⟨_, h, rfl⟩⟩
  obtain ⟨e, he, hs⟩ := List.mem_map.1 h
  cases e <;> cases hs
  exact he

/-- The events es are what R391 gives for the request i, accepted at s. -/
structure CountedAs (s : State) (i : Instr) (es : List Event) : Prop where
  counts : countEvents es = eventCounts s i
  bytes : (wireBytes es).length = bytesOnWire i
  waits : ∀ us, .delay us ∈ es → us = if i = .awaken then s.params.tWakeUs else s.params.tSleepUs

/-- R391 is about the shapes of the events alone. -/
theorem CountedAs.of_shapes {s : State} {i : Instr} {es es' : List Event} (h : CountedAs s i es)
    (he : es'.map eventShape = es.map eventShape) : CountedAs s i es' where
  counts := by rw [← countEvents_map_eventShape, he, countEvents_map_eventShape, h.counts]
  bytes := by rw [← length_wireBytes_map_eventShape, he, length_wireBytes_map_eventShape, h.bytes]
  waits us hus := h.waits us (by rwa [← delay_mem_map_eventShape, ← he, delay_mem_map_eventShape])

/-! ### The shapes of a request's events -/

/-- The shape of the stage's event depends on the parameters alone. -/
def ShapeFixed (g : Stage) : Prop :=
  ∀ s t : State, t.params = s.params → eventShape (g.event t) = eventShape (g.event s)

theorem shapeFixed_xread (addr : State → Nat) (keep : Byte → State → State) : ShapeFixed (xread addr keep) :=
  fun _ _ _ => rfl

theorem shapeFixed_xwrite (addr : State → Nat) (v : State → Byte) : ShapeFixed (xwrite addr v) := fun _ _ _ => rfl

theorem shapeFixed_readPhase (batched : Bool) (assembled : Cfg → State → State) :
    ∀ g ∈ readPhase batched assembled, ShapeFixed g := by
  cases batched with
  | false => simp [readPhase, shapeFixed_xread]
  | true => exact List.forall_mem_singleton.2 fun _ _ _ => rfl

theorem shapeFixed_writePhase (batched : Bool) : ∀ g ∈ writePhase batched, ShapeFixed g := by
  cases batched with
  | false => simp [writePhase, shapeFixed_xwrite]
  | true => exact List.forall_mem_singleton.2 fun _ _ _ => rfl

theorem shapeFixed_powerStages (l : PinLevel) {wait : State → Nat} (z : SleepState)
    (hw : ∀ s t : State, t.params = s.params → wait t = wait s) : ∀ g ∈ powerStages l wait z, ShapeFixed g :=
  List.forall_mem_cons.2 ⟨fun _ _ _ => rfl,
    List.forall_mem_singleton.2 fun s t h => congrArg Event.delay (hw s t h)⟩

theorem stages_shapeFixed {o : BitVec 4} {p : Program} (h : programOf o = some p) (s : State) :
    ∀ g ∈ p.stages s, ShapeFixed g := by
  cases o, p, h using programOf_elim with
  | readReg => simp [readRegProgram, shapeFixed_xread]
  | writeReg => simp [writeRegProgram, shapeFixed_xwrite]
  | modifyReg => simp [modifyRegProgram, shapeFixed_xread, shapeFixed_xwrite]
  | readConfig => exact shapeFixed_readPhase _ _
  | writeConfig => exact shapeFixed_writePhase _
  | modifyConfig => exact List.forall_mem_append.2 ⟨shapeFixed_readPhase _ _, shapeFixed_writePhase _⟩
  | clearFault => simp [clearFaultProgram, shapeFixed_xread, shapeFixed_xwrite]
  | awaken =>
    simp only [awakenProgram]
    split
    · simp
    · exact shapeFixed_powerStages _ _ fun _ _ h => congrArg Params.tWakeUs h
  | sleep =>
    simp only [sleepProgram]
    split
    · simp
    · exact shapeFixed_powerStages _ _ fun _ _ h => congrArg Params.tSleepUs h

/-! ### A run whose every event is answered -/

/-- So many exchanges, pin sets and delays will be answered without error. -/
structure Supplied (c : Nat × Nat × Nat) (s : State) : Prop where
  transport : ∀ j < c.1, ∃ rx, s.transport[j]? = some (.ok rx)
  sleepPin : ∀ j < c.2.1, s.sleepPin[j]? = some .ok
  delay : ∀ j < c.2.2, s.delay[j]? = some .done

theorem Supplied.of_eq {c : Nat × Nat × Nat} {s t : State} (h : Supplied c s) (ht : t.transport = s.transport)
    (hp : t.sleepPin = s.sleepPin) (hd : t.delay = s.delay) : Supplied c t :=
  ⟨ht ▸ h.transport, hp ▸ h.sleepPin, hd ▸ h.delay⟩

/-- An event for which an answer is supplied is answered, and the answers for the others are still to come. -/
theorem Supplied.answered {e : Event} {es : List Event} {s : State} (h : Supplied (countEvents (e :: es)) s) :
    ∃ t, awaitAnswer e s = .answered t ∧ Supplied (countEvents es) t := by
  obtain ⟨ht, hp, hd⟩ := h
  cases e with
  | exchange sent =>
    rw [countEvents_exchange_cons] at ht hp hd
    obtain ⟨received, h0⟩ := ht 0 (Nat.succ_pos _)
    obtain ⟨rest, hr⟩ := List.head?_eq_some_iff.1 (List.head?_eq_getElem?.trans h0)
    refine ⟨recordExchange sent.length received { s with transport := rest },
      by simp only [awaitAnswer, nextBusReply_cons hr, takeBusReply_cons hr], fun j hj => ?_, hp, hd⟩
    simpa [hr] using ht (j + 1) (Nat.succ_lt_succ hj)
  | pinSet l =>
    rw [countEvents_pinSet_cons] at ht hp hd
    obtain ⟨rest, hr⟩ := List.head?_eq_some_iff.1 (List.head?_eq_getElem?.trans (hp 0 (Nat.succ_pos _)))
    refine ⟨clearOutstanding { s with sleepPin := rest },
      by simp only [awaitAnswer, nextPinReply_cons hr, takePinReply_cons hr], ht, fun j hj => ?_, hd⟩
    simpa [hr] using hp (j + 1) (Nat.succ_lt_succ hj)
  | delay us =>
    rw [countEvents_delay_cons] at ht hp hd
    obtain ⟨rest, hr⟩ := List.head?_eq_some_iff.1 (List.head?_eq_getElem?.trans (hd 0 (Nat.succ_pos _)))
    refine ⟨clearOutstanding { s with delay := rest },
      by simp only [awaitAnswer, nextDelayReply_cons hr, takeDelayReply_cons hr], ht, hp, fun j hj => ?_⟩
    simpa [hr] using hd (j + 1) (Nat.succ_lt_succ hj)

/-- The events of the stages as the state s has them. -/
def stageEvents (gs : List Stage) (s : State) : List Event := gs.map fun g => g.event s

@[simp] theorem stageEvents_nil (s : State) : stageEvents [] s = [] := rfl

@[simp] theorem stageEvents_cons (g : Stage) (gs : List Stage) (s : State) :
    stageEvents (g :: gs) s = g.event s :: stageEvents gs s := rfl

/-- A run with an answer for each of its events ends IDLE, and has issued one event of each stage's shape, in order. The
shapes may be taken at any state u with the same parameters. -/
theorem runStages_supplied {u : State} {gs : List Stage} (hl : ∀ g ∈ gs, StageLaws g) (hf : ∀ g ∈ gs, ShapeFixed g)
    {s : State} (hs : s.params = u.params) (ha : Supplied (countEvents (stageEvents gs u)) s) :
    (runStages gs s).phase = .idle ∧ ∃ es, (runStages gs s).history = s.history ++ es
      ∧ es.map eventShape = (stageEvents gs u).map eventShape := by
  induction gs generalizing s with
  | nil => exact ⟨rfl, [], by simp, rfl⟩
  | cons g gs ih =>
    obtain ⟨hg, hl⟩ := List.forall_mem_cons.1 hl
    obtain ⟨hfg, hf⟩ := List.forall_mem_cons.1 hf
    have hshape : eventShape (g.event s) = eventShape (g.event u) := hfg u s hs
    have hc : countEvents (stageEvents (g :: gs) u) = countEvents (g.event s :: stageEvents gs u) := by
      rw [← countEvents_map_eventShape, ← countEvents_map_eventShape (g.event s :: _)]
      simp [hshape]
    have hissued : Supplied (countEvents (g.event s :: stageEvents gs u)) (issue (g.event s) s) :=
      (hc ▸ ha).of_eq (by simp) (by simp) (by simp)
    obtain ⟨t, hA, ht⟩ := hissued.answered
    obtain ⟨hpar, -, -, -, -, -, hhist, -⟩ := answered_keeps hA
    obtain ⟨hidle, es, hes, hmap⟩ := ih hl hf (s := g.done t) (by rw [hg.params, hpar, issue_params, hs])
      (ht.of_eq (hg.transport t) (hg.sleepPin t) (hg.delay t))
    rw [runStages, hA]
    exact ⟨hidle, g.event s :: es, by simp [hes, hg.history, hhist], by simp [hshape, hmap]⟩

/-! ### The table, request by request -/

/-- i ends in the step that accepts it, with the events R391 gives. -/
def EndsCounted (s : State) (i : Instr) : Prop :=
  ∃ t es, exec i s = .next t ∧ t.phase = .idle ∧ t.history = s.history ++ es ∧ CountedAs s i es

/-- What a request does before its first event leaves the answers alone. -/
theorem start_answers {o : BitVec 4} {p : Program} (h : programOf o = some p) (s : State) :
    (p.start s).transport = s.transport ∧ (p.start s).sleepPin = s.sleepPin ∧ (p.start s).delay = s.delay := by
  cases o, p, h using programOf_elim <;> exact ⟨rfl, rfl, rfl⟩

/-- An accepted request ends as R391 has it if its stages are as R391 has them. -/
theorem endsCounted_accepted {i : Instr} {s : State} (r : Request) {p : Program} {o : BitVec 4}
    (hp : programOf o = some p) (hv : validate r.header = none) (hs : s.phase = .idle)
    (ha : Supplied (eventCounts s i) s) (hx : exec i s = .next (acceptRequest r p s))
    (hc : CountedAs s i (stageEvents (p.stages s) s)) : EndsCounted s i := by
  obtain ⟨hpar, -, hhist, -⟩ := start_keeps hp (latch r s)
  obtain ⟨ht, hpin, hd⟩ := start_answers hp (latch r s)
  obtain ⟨hidle, es, hes, hmap⟩ := runStages_supplied (stageLaws hp s) (stages_shapeFixed hp s)
    (s := p.start (latch r s)) (u := s) hpar (hc.counts ▸ ha.of_eq ht hpin hd)
  refine ⟨_, es, hx, ?_⟩
  rw [acceptRequest_valid p hs hv, stages_ext hp (latch_params r s) (latch_sleep r s)]
  exact ⟨hidle, by rw [hes, hhist, latch_history], hc.of_shapes hmap⟩

/-- No request has more than 8 exchanges, one pin set and one delay. -/
theorem eventCounts_le (s : State) (i : Instr) :
    (eventCounts s i).1 ≤ 8 ∧ (eventCounts s i).2.1 ≤ 1 ∧ (eventCounts s i).2.2 ≤ 1 := by
  cases i with
  | readConfig | writeConfig | writeDefaults | modifyConfig => cases hb : s.params.batched <;> simp [eventCounts, hb]
  | awaken | sleep =>
    simp only [eventCounts]
    split <;> decide
  | _ => simp [eventCounts]

/-- The answers of R391's premise are enough for every request. -/
theorem supplied_eventCounts (i : Instr) {s : State} (ht : ∀ j < 8, ∃ rx, s.transport[j]? = some (.ok rx))
    (hp : s.sleepPin.head? = some .ok) (hd : s.delay.head? = some .done) : Supplied (eventCounts s i) s := by
  obtain ⟨hx, hpin, hdel⟩ := eventCounts_le s i
  rw [List.head?_eq_getElem?] at hp hd
  refine ⟨fun j hj => ht j (by omega), fun j hj => ?_, fun j hj => ?_⟩
  · rwa [show j = 0 by omega]
  · rwa [show j = 0 by omega]

/-- The stages issue n exchanges, of m bytes in all, and no other event. -/
def IssueExchanges (gs : List Stage) (n m : Nat) : Prop :=
  ∀ s, countEvents (stageEvents gs s) = (n, 0, 0) ∧ (wireBytes (stageEvents gs s)).length = m

theorem issueExchanges_nil : IssueExchanges [] 0 0 := fun _ => ⟨rfl, rfl⟩

theorem issueExchanges_readPhase (batched : Bool) (assembled : Cfg → State → State) :
    IssueExchanges (readPhase batched assembled) (if batched then 1 else 4) 8 := by
  cases batched <;> exact fun _ => ⟨rfl, rfl⟩

theorem issueExchanges_writePhase (batched : Bool) :
    IssueExchanges (writePhase batched) (if batched then 1 else 4) 8 := by
  cases batched <;> exact fun _ => ⟨rfl, rfl⟩

theorem issueExchanges_bothPhases (batched : Bool) (assembled : Cfg → State → State) :
    IssueExchanges (readPhase batched assembled ++ writePhase batched) (if batched then 2 else 8) 16 := by
  cases batched <;> exact fun _ => ⟨rfl, rfl⟩

section
variable {i : Instr} {s : State} (hs : s.phase = .idle) (ha : Supplied (eventCounts s i) s)

theorem IssueExchanges.countedAs {gs : List Stage} {n m : Nat} (h : IssueExchanges gs n m)
    (hc : eventCounts s i = (n, 0, 0)) (hb : bytesOnWire i = m) : CountedAs s i (stageEvents gs s) := by
  obtain ⟨hn, hm⟩ := h s
  refine ⟨hn.trans hc.symm, hm.trans hb.symm, fun us hus => ?_⟩
  have hd : (countEvents (stageEvents gs s)).2.2 = 0 := by rw [hn]
  exact absurd rfl (List.countP_eq_zero.1 hd (.delay us) hus)

include hs ha

theorem endsCounted_readRegister {a : Addr} (hw : addrReadable a = true) (hx : exec i s = .next (readRegister a s))
    (hc : eventCounts s i = (1, 0, 0)) (hb : bytesOnWire i = 2) : EndsCounted s i :=
  have hv : validate (headerWith 0x1000#16 a) = none := validate_readReg a (of_decide_eq_true hw)
  endsCounted_accepted (recordBare (headerWith 0x1000#16 a) (offered s)) (rfl : programOf 1#4 = some readRegProgram)
    hv hs ha hx (IssueExchanges.countedAs (fun _ => ⟨rfl, rfl⟩) hc hb)

theorem endsCounted_writeRegister {a : Addr} {d : Byte} (hw : addrWritable a = true)
    (hx : exec i s = .next (writeRegister a d s)) (hc : eventCounts s i = (1, 0, 0)) (hb : bytesOnWire i = 2) :
    EndsCounted s i :=
  have ⟨h2, h5⟩ := of_decide_eq_true hw
  have hv : validate (headerWith 0x2000#16 a) = none := validate_writeReg a h2 h5
  endsCounted_accepted (recordData (headerWith 0x2000#16 a) d (offered s)) (rfl : programOf 2#4 = some writeRegProgram)
    hv hs ha hx (IssueExchanges.countedAs (fun _ => ⟨rfl, rfl⟩) hc hb)

theorem endsCounted_modifyRegister {a : Addr} {f : Transform 8} (hw : addrWritable a = true)
    (hx : exec i s = .next (modifyRegister a f s)) (hc : eventCounts s i = (2, 0, 0)) (hb : bytesOnWire i = 4) :
    EndsCounted s i :=
  have ⟨h2, h5⟩ := of_decide_eq_true hw
  have hv : validate (recordRegFn (headerWith 0x3000#16 a) f (offered s)).header = none := by
    cases f <;> exact validate_modifyReg a h2 h5
  endsCounted_accepted _ (rfl : programOf 3#4 = some modifyRegProgram) hv hs ha hx
    (IssueExchanges.countedAs (fun _ => ⟨rfl, rfl⟩) hc hb)

theorem endsCounted_writeBundle {c : Cfg} (hx : exec i s = .next (writeBundle c s))
    (hc : eventCounts s i = (if s.params.batched then 1 else 4, 0, 0)) (hb : bytesOnWire i = 8) : EndsCounted s i :=
  endsCounted_accepted (recordCfg 0x5000#16 c (offered s)) (rfl : programOf 5#4 = some writeConfigProgram)
    validate_writeConfig hs ha hx ((issueExchanges_writePhase _).countedAs hc hb)

end

section
variable {s : State} (hs : s.phase = .idle)
include hs

theorem endsCounted_readConfig (ha : Supplied (eventCounts s .readConfig) s) : EndsCounted s .readConfig :=
  endsCounted_accepted (recordBare 0x4000#16 (offered s)) (rfl : programOf 4#4 = some readConfigProgram)
    validate_readConfig hs ha rfl ((issueExchanges_readPhase _ _).countedAs rfl rfl)

theorem endsCounted_modifyConfig (f : Transform 32) (ha : Supplied (eventCounts s (.modifyConfig f)) s) :
    EndsCounted s (.modifyConfig f) :=
  endsCounted_accepted (recordCfgFn 0x6000#16 f (offered s)) (rfl : programOf 6#4 = some modifyConfigProgram)
    (validate_recordCfgFn f _) hs ha rfl ((issueExchanges_bothPhases _ _).countedAs rfl rfl)

theorem endsCounted_clearFault (ha : Supplied (eventCounts s .clearFault) s) : EndsCounted s .clearFault :=
  endsCounted_accepted (recordBare 0x7000#16 (offered s)) (rfl : programOf 7#4 = some clearFaultProgram)
    validate_clearFault hs ha rfl (IssueExchanges.countedAs (fun _ => ⟨rfl, rfl⟩) rfl rfl)

/-- AWAKEN, acting or not (R303). -/
theorem endsCounted_awaken (ha : Supplied (eventCounts s .awaken) s) : EndsCounted s .awaken := by
  refine endsCounted_accepted (recordBare 0x8000#16 (offered s)) (rfl : programOf 8#4 = some awakenProgram)
    validate_awaken hs ha rfl ?_
  simp only [awakenProgram]
  by_cases hn : s.params.hasSleepPin = false ∨ s.sleep = .awake
  · rw [if_pos hn]
    exact issueExchanges_nil.countedAs (if_neg (by simpa [or_iff_not_imp_left] using hn)) rfl
  · rw [if_neg hn]
    exact ⟨(if_pos (by simpa using hn)).symm, rfl, by simp [powerStages]⟩

/-- SLEEP, acting or not (R304). -/
theorem endsCounted_sleep (ha : Supplied (eventCounts s .sleep) s) : EndsCounted s .sleep := by
  refine endsCounted_accepted (recordBare 0x9000#16 (offered s)) (rfl : programOf 9#4 = some sleepProgram)
    validate_sleep hs ha rfl ?_
  simp only [sleepProgram]
  by_cases hn : s.params.hasSleepPin = false ∨ s.sleep = .asleep
  · rw [if_pos hn]
    exact issueExchanges_nil.countedAs (if_neg (by simpa [or_iff_not_imp_left] using hn)) rfl
  · rw [if_neg hn]
    exact ⟨(if_pos (by simpa using hn)).symm, rfl, by simp [powerStages]⟩

/-- A reserved operation code issues no event (R332). -/
theorem endsCounted_refused {i : Instr} {sub : MisuseSub} (hx : exec i s = .next (refuseRequest sub s))
    (hc : eventCounts s i = (0, 0, 0)) (hb : bytesOnWire i = 0) : EndsCounted s i := by
  have he : refuseRequest sub s = refuse sub s := by simp [refuseRequest, hs]
  exact ⟨refuse sub s, [], by rw [hx, he], by simp [hs], by simp, issueExchanges_nil.countedAs hc hb⟩

/-- Every well-formed request, given its answers, ends with the events R391 gives. -/
theorem endsCounted {i : Instr} (hi : IsRequest i) (hw : i.wf = true) (ha : Supplied (eventCounts s i) s) :
    EndsCounted s i := by
  cases i with
  | readReg a => exact endsCounted_readRegister hs ha hw rfl rfl rfl
  | writeReg a d => exact endsCounted_writeRegister hs ha hw rfl rfl rfl
  | modifyReg a f => exact endsCounted_modifyRegister hs ha hw rfl rfl rfl
  | readConfig => exact endsCounted_readConfig hs ha
  | writeConfig c => exact endsCounted_writeBundle hs ha rfl rfl rfl
  | modifyConfig f => exact endsCounted_modifyConfig hs f ha
  | clearFault => exact endsCounted_clearFault hs ha
  | awaken => exact endsCounted_awaken hs ha
  | sleep => exact endsCounted_sleep hs ha
  | reservedOpc0 | reservedOpcA | reservedOpcB | reservedOpcC | reservedOpcD | reservedOpcE | reservedOpcF =>
    exact endsCounted_refused hs rfl rfl rfl
  | readFault | readDiag | readIc1 | readIc2 | readIc3 | readIc4 =>
    exact endsCounted_readRegister hs ha rfl rfl rfl rfl
  | writeIc1 | writeIc2 | writeIc3 | writeIc4 => exact endsCounted_writeRegister hs ha rfl rfl rfl rfl
  | modifyIc1 | modifyIc2 | modifyIc3 | modifyIc4 => exact endsCounted_modifyRegister hs ha rfl rfl rfl rfl
  | setBits | clrBits => exact endsCounted_modifyRegister hs ha hw rfl rfl rfl
  | writeDefaults => exact endsCounted_writeBundle hs ha rfl rfl rfl
  | wireRead | wireWrite => exact hi.elim

end

/-! ### MISUSE -/

/-- A request that has been accepted does not end with MISUSE (R220, R335). -/
theorem runStages_err_ne_misuse {gs : List Stage} {u : State} (hb : Between gs u) :
    (runStages gs u).phase = .idle → (runStages gs u).res.err ≠ .misuse := by
  refine run_induct (P := fun _ _ => True) (W := fun _ _ _ => True)
    (Q := fun t => t.phase = .idle → t.res.err ≠ .misuse) ?atEnd ?issues ?waits ?fails ?goesOn gs u hb trivial
  case atEnd => simp
  case issues => exact fun _ _ _ _ _ => trivial
  case waits => exact fun g gs v t hw _ hA ht => nomatch ht.symm.trans (waiting_waits hw hA).busy
  case fails =>
    intro g gs v x w t _ _ hA _
    rcases awaitAnswer_failed hA with ⟨_, _, _, rfl, _⟩ | ⟨_, _, _, rfl, _⟩ <;> simp
  case goesOn => exact fun _ _ _ _ _ _ _ => trivial

/-- A request that ends with MISUSE was refused, and has issued no event (R332). -/
theorem history_of_misuse {i : Instr} {s t : State} (hi : IsRequest i) (hs : s.phase = .idle) (hx : exec i s = .next t)
    (ht : t.phase = .idle) (he : t.res.err = .misuse) : t.history = s.history := by
  obtain ⟨r, p, hr, hp⟩ := exec_accepts hi s
  obtain rfl : acceptRequest r p s = t := by simpa [hr] using hx
  cases hv : validate r.header with
  | some sub => rw [acceptRequest_refused p hs hv, refuse_history]
  | none =>
    rw [acceptRequest_valid p hs hv] at ht he
    exact absurd he (runStages_err_ne_misuse (between_start hv (hp hv)) ht)

/-- Settles O52: each request by its stages, whose events have the shapes R391 counts; a MISUSE by its refusal. -/
theorem eventCountsPerRequest : Obligations.EventCountsPerRequest := by
  refine ⟨fun i s hi hw hs ht hp hd => ?_, fun i s t => history_of_misuse⟩
  obtain ⟨t, es, hx, hidle, hes, hc⟩ := endsCounted hs hi hw (supplied_eventCounts i ht hp hd)
  exact ⟨t, es, hx, hidle, hes, hc.counts, hc.bytes, hc.waits⟩

end Sys2Proof.Machine
end

section
/-!
The encoder and the decoder (R110 to R121, R333). An assigned operation code with RSV 0 is decoded by its row, everything else by the
checks of VALIDATE. The words of a pseudo-instruction are those of the request it stands for, so decoding inverts encoding if it
does for the instructions that stand for themselves.
-/

namespace Sys2Proof

/-! ### The parts of a header (R110) -/

/-- A reserved operation code's header is the code and the bits it leaves open. -/
theorem header_opc_rest (h : Header) : headerOpc h ++ headerRest h = h :=
  (BitVec.extractLsb'_append_extractLsb'_eq_extractLsb' (by decide)).trans BitVec.extractLsb'_eq_self

theorem headerOpc_append (o : BitVec 4) (rest : BitVec 12) : headerOpc (o ++ rest) = o :=
  BitVec.extractLsb'_append_eq_left

theorem headerRest_append (o : BitVec 4) (rest : BitVec 12) : headerRest (o ++ rest) = rest :=
  BitVec.extractLsb'_append_eq_right

theorem headerRsv_readReg : ∀ a : Addr, headerRsv (headerWith 0x1000#16 a) = 0#7 := by decide
theorem headerRsv_writeReg : ∀ a : Addr, headerRsv (headerWith 0x2000#16 a) = 0#7 := by decide
theorem headerRsv_modifyReg : ∀ a : Addr, headerRsv (headerWith 0x3000#16 a) = 0#7 := by decide

/-- A header with RSV 0 is its operation code and its address. -/
theorem header_of_fields {h : Header} {o : BitVec 4} {a : Addr} (ho : headerOpc h = o) (hr : headerRsv h = 0#7)
    (ha : headerAddr h = a) : o ++ 0#7 ++ a = h := by
  rw [← Machine.header_fields h, ho, hr, ha]

/-! ### Every record's decoding (R111, R115, R333) -/

/-- How a record decodes: as the row of its operation code, or as VALIDATE refuses it. -/
inductive DecodesTo (r : Request) : Except DecodeError Instr → Prop
  | readReg (ho : headerOpc r.header = 1#4) (hr : headerRsv r.header = 0#7) :
    DecodesTo r (.ok (.readReg (headerAddr r.header)))
  | writeReg (ho : headerOpc r.header = 2#4) (hr : headerRsv r.header = 0#7) :
    DecodesTo r (.ok (.writeReg (headerAddr r.header) r.data))
  | modifyReg (ho : headerOpc r.header = 3#4) (hr : headerRsv r.header = 0#7) :
    DecodesTo r (.ok (.modifyReg (headerAddr r.header) (reqRegTransform r)))
  | readConfig (hh : r.header = 0x4000#16) : DecodesTo r (.ok .readConfig)
  | writeConfig (hh : r.header = 0x5000#16) : DecodesTo r (.ok (.writeConfig r.cfg))
  | modifyConfig (hh : r.header = 0x6000#16) : DecodesTo r (.ok (.modifyConfig (reqCfgTransform r)))
  | clearFault (hh : r.header = 0x7000#16) : DecodesTo r (.ok .clearFault)
  | awaken (hh : r.header = 0x8000#16) : DecodesTo r (.ok .awaken)
  | sleep (hh : r.header = 0x9000#16) : DecodesTo r (.ok .sleep)
  | reservedOpc0 (ho : headerOpc r.header = 0x0#4) : DecodesTo r (.ok (.reservedOpc0 (headerRest r.header)))
  | reservedOpcA (ho : headerOpc r.header = 0xA#4) : DecodesTo r (.ok (.reservedOpcA (headerRest r.header)))
  | reservedOpcB (ho : headerOpc r.header = 0xB#4) : DecodesTo r (.ok (.reservedOpcB (headerRest r.header)))
  | reservedOpcC (ho : headerOpc r.header = 0xC#4) : DecodesTo r (.ok (.reservedOpcC (headerRest r.header)))
  | reservedOpcD (ho : headerOpc r.header = 0xD#4) : DecodesTo r (.ok (.reservedOpcD (headerRest r.header)))
  | reservedOpcE (ho : headerOpc r.header = 0xE#4) : DecodesTo r (.ok (.reservedOpcE (headerRest r.header)))
  | reservedOpcF (ho : headerOpc r.header = 0xF#4) : DecodesTo r (.ok (.reservedOpcF (headerRest r.header)))
  | rejected (hv : validate r.header = some .reservedBits) : DecodesTo r (.error (.misuse .reservedBits))

/-- With an assigned operation code, RSV is refused unless it is 0 (R333). -/
theorem validate_rsv_ne {h : Header} (h1 : 1 ≤ (headerOpc h).toNat) (h9 : (headerOpc h).toNat ≤ 9)
    (hr : headerRsv h ≠ 0#7) : validate h = some .reservedBits := by
  have h0 : ¬ (headerOpc h = 0#4 ∨ 10 ≤ (headerOpc h).toNat) := by
    rintro (h | h)
    · simp [h] at h1
    · omega
  rw [validate, if_neg h0, if_pos hr]

/-- With an operation code that names no register, ADDR is refused unless it is 0 (R333). -/
theorem validate_addr_ne {h : Header} (h4 : 4 ≤ (headerOpc h).toNat) (h9 : (headerOpc h).toNat ≤ 9)
    (hr : headerRsv h = 0#7) (ha : headerAddr h ≠ 0#5) : validate h = some .reservedBits := by
  have h0 : ¬ (headerOpc h = 0#4 ∨ 10 ≤ (headerOpc h).toNat) := by
    rintro (h | h)
    · simp [h] at h4
    · omega
  have h1 : headerOpc h ≠ 1#4 := fun h => by simp [h] at h4
  have h23 : ¬ (headerOpc h = 2#4 ∨ headerOpc h = 3#4) := by rintro (h | h) <;> simp [h] at h4
  rw [validate, if_neg h0, if_neg (not_not_intro hr), if_neg h1, if_neg h23, if_pos ha]

/-- An operation code that names no register: ADDR 0 is accepted, anything else is RESERVED_BITS (R333). -/
theorem decodesTo_decodeBare {r : Request} {o : BitVec 4} {i : Instr} (ho : headerOpc r.header = o) (h4 : 4 ≤ o.toNat)
    (h9 : o.toNat ≤ 9) (hr : headerRsv r.header = 0#7) (hi : r.header = o ++ 0#7 ++ 0#5 → DecodesTo r (.ok i)) :
    DecodesTo r (decodeBare r.header i) := by
  unfold decodeBare
  split
  next ha => exact hi (header_of_fields ho hr ha).symm
  next ha => exact .rejected (validate_addr_ne (ho ▸ h4) (ho ▸ h9) hr ha)

theorem decodesTo_decodeAssigned {r : Request} (h1 : 1 ≤ (headerOpc r.header).toNat) (h9 : (headerOpc r.header).toNat ≤ 9)
    (hr : headerRsv r.header = 0#7) : DecodesTo r (decodeAssigned r) := by
  unfold decodeAssigned
  split
  next h => exact .readReg (BitVec.eq_of_toNat_eq h) hr
  next h => exact .writeReg (BitVec.eq_of_toNat_eq h) hr
  next h => exact .modifyReg (BitVec.eq_of_toNat_eq h) hr
  next h => exact decodesTo_decodeBare (o := 4#4) (BitVec.eq_of_toNat_eq h) (by decide) (by decide) hr .readConfig
  next h => exact decodesTo_decodeBare (o := 5#4) (BitVec.eq_of_toNat_eq h) (by decide) (by decide) hr .writeConfig
  next h => exact decodesTo_decodeBare (o := 6#4) (BitVec.eq_of_toNat_eq h) (by decide) (by decide) hr .modifyConfig
  next h => exact decodesTo_decodeBare (o := 7#4) (BitVec.eq_of_toNat_eq h) (by decide) (by decide) hr .clearFault
  next h => exact decodesTo_decodeBare (o := 8#4) (BitVec.eq_of_toNat_eq h) (by decide) (by decide) hr .awaken
  next h => exact decodesTo_decodeBare (o := 9#4) (BitVec.eq_of_toNat_eq h) (by decide) (by decide) hr .sleep
  next =>
    simp only [imp_false] at *
    omega

/-- The decoder answers every record in one of these ways. -/
theorem decodesTo_decodeRequest (r : Request) : DecodesTo r (decodeRequest r) := by
  have hl := (headerOpc r.header).isLt
  unfold decodeRequest
  split
  next h => exact .reservedOpc0 (BitVec.eq_of_toNat_eq h)
  next h => exact .reservedOpcA (BitVec.eq_of_toNat_eq h)
  next h => exact .reservedOpcB (BitVec.eq_of_toNat_eq h)
  next h => exact .reservedOpcC (BitVec.eq_of_toNat_eq h)
  next h => exact .reservedOpcD (BitVec.eq_of_toNat_eq h)
  next h => exact .reservedOpcE (BitVec.eq_of_toNat_eq h)
  next h => exact .reservedOpcF (BitVec.eq_of_toNat_eq h)
  next =>
    simp only [imp_false] at *
    have h1 : 1 ≤ (headerOpc r.header).toNat := by omega
    have h9 : (headerOpc r.header).toNat ≤ 9 := by omega
    split
    next hr => exact decodesTo_decodeAssigned h1 h9 hr
    next hr => exact .rejected (validate_rsv_ne h1 h9 hr)

/-- Settles O4: the decoder rejects what VALIDATE refuses with RESERVED_BITS, and nothing else. -/
theorem rejectedRecordsCarryTheValidateSubcode : Obligations.RejectedRecordsCarryTheValidateSubcode := by
  intro r e he
  have h := decodesTo_decodeRequest r
  rw [he] at h
  cases h with
  | rejected hv => exact ⟨_, rfl, hv⟩

/-- Settles O2: each row's header, from the fields that the row fixes and those it leaves open. -/
theorem decodedHeaderIsTheEncodedHeader : Obligations.DecodedHeaderIsTheEncodedHeader := by
  intro p r i hi
  have h := decodesTo_decodeRequest r
  rw [hi] at h
  cases h with
  | readReg ho hr => exact ⟨_, rfl, (Machine.headerWith_readReg _).trans (header_of_fields ho hr rfl)⟩
  | writeReg ho hr => exact ⟨_, rfl, (Machine.headerWith_writeReg _).trans (header_of_fields ho hr rfl)⟩
  | modifyReg ho hr =>
    have hh := (Machine.headerWith_modifyReg _).trans (header_of_fields ho hr rfl)
    simp only [encode]
    cases reqRegTransform r <;> exact ⟨_, rfl, hh⟩
  | modifyConfig hh =>
    simp only [encode]
    cases reqCfgTransform r <;> exact ⟨_, rfl, hh.symm⟩
  | readConfig hh | writeConfig hh | clearFault hh | awaken hh | sleep hh => exact ⟨_, rfl, hh.symm⟩
  | reservedOpc0 ho | reservedOpcA ho | reservedOpcB ho | reservedOpcC ho | reservedOpcD ho | reservedOpcE ho
  | reservedOpcF ho => exact ⟨_, rfl, ho ▸ header_opc_rest r.header⟩

/-! ### Frames on the wire (R101, R102, R121) -/

theorem cmdWrite_fields : ∀ a : Addr, (cmdWrite a.toNat).getLsbD 7 = false ∧ (cmdWrite a.toNat).getLsbD 6 = false
    ∧ (cmdWrite a.toNat).getLsbD 0 = false ∧ (cmdWrite a.toNat).extractLsb' 1 5 = a := by decide

theorem decodeFrame_read : ∀ a : Addr, decodeFrame (frameBits (frameRead a.toNat)) = .ok (.wireRead a) := by decide

theorem decodeFrame_write (a : Addr) (d : Byte) : decodeFrame (frameBits (frameWrite a.toNat d)) = .ok (.wireWrite a d) := by
  obtain ⟨h7, h6, h0, ha⟩ := cmdWrite_fields a
  have hf : frameBits (frameWrite a.toNat d) = cmdWrite a.toNat ++ d := rfl
  have haddr : (cmdWrite a.toNat ++ d).extractLsb' 9 5 = a :=
    (BitVec.extractLsb'_append_eq_of_le (by decide)).trans ha
  have hdata : (cmdWrite a.toNat ++ d).extractLsb' 0 8 = d := BitVec.extractLsb'_append_eq_right
  have hbit : ∀ i, (cmdWrite a.toNat ++ d).getLsbD (i + 8) = (cmdWrite a.toNat).getLsbD i := fun i => by
    rw [BitVec.getLsbD_append]
    simp
  rw [hf, decodeFrame, haddr, hdata, hbit 7, hbit 0, hbit 6, h7, h6, h0]
  rfl

/-! ### Decoding the words of an instruction -/

theorem encode_expand (p : Params) (i : Instr) : encode p (expand p i) = encode p i := by cases i <;> rfl

theorem expand_expand (p : Params) (i : Instr) : expand p (expand p i) = expand p i := by cases i <;> rfl

theorem decodeRequest_readReg (a : Addr) :
    decodeRequest { Request.zero with header := headerWith 0x1000#16 a } = .ok (.readReg a) := by
  simp [decodeRequest, decodeAssigned, headerOpc_readReg, headerRsv_readReg, headerAddr_readReg]

theorem decodeRequest_writeReg (a : Addr) (d : Byte) :
    decodeRequest { Request.zero with header := headerWith 0x2000#16 a, data := d } = .ok (.writeReg a d) := by
  simp [decodeRequest, decodeAssigned, headerOpc_writeReg, headerRsv_writeReg, headerAddr_writeReg]

theorem decode_codeModifyReg (a : Addr) (f : Transform 8) : decode (codeModifyReg a f) = .ok (.modifyReg a f) := by
  cases f <;> simp [codeModifyReg, decode, decodeRequest, decodeAssigned, headerOpc_modifyReg, headerRsv_modifyReg,
    headerAddr_modifyReg, reqRegTransform, Request.zero]

theorem decode_codeModifyConfig (f : Transform 32) : decode (codeModifyConfig f) = .ok (.modifyConfig f) := by
  cases f <;> simp [codeModifyConfig, decode, decodeRequest, decodeAssigned, decodeBare, headerOpc, headerRsv, headerAddr,
    reqCfgTransform, Request.zero]

/-- Decoding inverts encoding for every instruction that stands for itself. -/
theorem decode_encode_of_expand_eq {p : Params} {i : Instr} (h : expand p i = i) : decode (encode p i) = .ok i := by
  cases i with
  | readReg a => exact decodeRequest_readReg a
  | writeReg a d => exact decodeRequest_writeReg a d
  | modifyReg a f => exact decode_codeModifyReg a f
  | modifyConfig f => exact decode_codeModifyConfig f
  | readConfig | clearFault | awaken | sleep => rfl
  | writeConfig c =>
    simp [encode, decode, decodeRequest, decodeAssigned, decodeBare, headerOpc, headerRsv, headerAddr]
  | reservedOpc0 rest | reservedOpcA rest | reservedOpcB rest | reservedOpcC rest | reservedOpcD rest
  | reservedOpcE rest | reservedOpcF rest =>
    simp [encode, codeBare, decode, decodeRequest, headerOpc_append, headerRest_append]
  | wireRead a => exact decodeFrame_read a
  | wireWrite a d => exact decodeFrame_write a d
  | _ => cases h

/-- Settles O1: an instruction has the words of the one it stands for, and those decode to it. -/
theorem decodeInvertsEncode : Obligations.DecodeInvertsEncode := by
  intro p i
  rw [← encode_expand, decode_encode_of_expand_eq (expand_expand p i)]

/-- Settles O3: each word, by running the decoder on it. -/
theorem specWordsDecode : Obligations.SpecWordsDecode :=
  ⟨rfl, rfl, rfl, rfl, rfl, rfl, rfl, rfl, rfl, rfl, rfl, rfl, rfl⟩

/-! ### The framer (R140 to R142) -/

/-- The framer laws on the 32 addresses that a command byte can hold. -/
theorem framerLaws_of_lt : ∀ n : Fin 32,
    cmdRead n = cmdWrite n ||| 0x40#8 ∧ cmdRead n &&& 0x40#8 = 0x40#8 ∧ cmdWrite n &&& 0x40#8 = 0x00#8
    ∧ ((cmdRead n >>> 1) &&& 0x1F#8).toNat = n ∧ ((cmdWrite n >>> 1) &&& 0x1F#8).toNat = n
    ∧ cmdRead n &&& 0x81#8 = 0x00#8 ∧ cmdWrite n &&& 0x81#8 = 0x00#8 := by decide

/-- Settles O6: only the low five bits of an address are used, so the 32 addresses say it all. -/
theorem framerLaws : Obligations.FramerLaws := by
  intro addr
  rw [cmdRead_mask, cmdWrite_mask]
  exact framerLaws_of_lt ⟨addr % 32, Nat.mod_lt _ (by decide)⟩

end Sys2Proof
end

section
/-!
Enumerations and rows (R39, R170, R171, R191). `layoutOk` says of an enumeration's table that it has one entry for each code of the
field's width, no two alike: a code is the place of its meaning in the table.
-/

namespace Sys2Proof.Machine

/-! ### What `layoutOk` says of a row -/

/-- A field of a LAYOUT a block may have is at most a byte wide. -/
theorem layoutOk_fieldWidth_le {l : Layout} (hl : layoutOk l = true) {f : LayoutRow} (hf : f ∈ l) : fieldWidth f ≤ 8 := by
  obtain ⟨-, hle, h7⟩ := layoutOk_row hl hf
  rw [fieldWidth]
  omega

/-- What `tableOk` says of an enumeration's table. -/
structure TableFits (f : LayoutRow) (table : List Meaning) : Prop where
  length : table.length = 2 ^ fieldWidth f
  nodup : table.Nodup
  fits : ∀ m ∈ table, meaningFits f.field m = true
  keeps : ∀ i < table.length, keepsCode table i = true
  unlocks : f.field = .lock → .unlock ∈ table
  locks : f.field = .lock → .lock ∈ table

theorem tableFits_of_rowOk {f : LayoutRow} {table : List Meaning} (h : rowOk f = true) (hk : f.kind = .enum table) :
    TableFits f table := by
  simp only [rowOk, hk, tableOk, Bool.and_eq_true, decide_eq_true_eq, List.all_eq_true, List.mem_range, Bool.or_eq_true,
    bne_iff_ne, ne_eq, List.contains_iff_mem] at h
  obtain ⟨⟨⟨⟨hlen, hnd⟩, hfit⟩, hkeep⟩, hlock⟩ := h
  exact ⟨hlen, hnd, hfit, hkeep, fun hf => (hlock.resolve_left (not_not_intro hf)).1,
    fun hf => (hlock.resolve_left (not_not_intro hf)).2⟩

theorem flag_of_rowOk {f : LayoutRow} (h : rowOk f = true) (hk : f.kind = .flag) : f.hi = f.lo := by
  simp only [rowOk, hk, Bool.and_eq_true, decide_eq_true_eq] at h
  exact h.1

theorem enum_of_rowOk {f : LayoutRow} (h : rowOk f = true) (he : isEnumerated f.field = true) :
    ∃ table, f.kind = .enum table := by
  cases hk : f.kind with
  | enum table => exact ⟨table, rfl⟩
  | flag => simp [rowOk, hk, he] at h
  | reserved => simp [rowOk, hk, he] at h

/-! ### Codes and meanings (R170) -/

section
variable {f : LayoutRow} {table : List Meaning} (hk : f.kind = .enum table)
include hk

theorem enumDecode_enum (c : Byte) : enumDecode f c = table[c.toNat]? := by
  simp [enumDecode, hk]

theorem enumEncode_enum (m : Meaning) : enumEncode f m = (codeOf m table).map (BitVec.ofNat 8) := by
  simp [enumEncode, hk]

theorem enumEncode_not_mem {m : Meaning} (hm : m ∉ table) : enumEncode f m = none := by
  rw [enumEncode_enum hk, codeOf_none hm, Option.map_none]

variable (ht : TableFits f table)
include ht

/-- Each code of the field's width has a meaning, and is that meaning's code. -/
theorem enumDecode_of_lt {c : Byte} (hc : c.toNat < 2 ^ fieldWidth f) :
    ∃ m ∈ table, enumDecode f c = some m ∧ enumEncode f m = some c := by
  have hc' : c.toNat < table.length := ht.length ▸ hc
  refine ⟨table[c.toNat], List.getElem_mem hc', ?_, ?_⟩
  · rw [enumDecode_enum hk, List.getElem?_eq_getElem hc']
  · rw [enumEncode_enum hk, codeOf_getElem ht.nodup hc', Option.map_some, BitVec.ofNat_toNat, BitVec.setWidth_eq]

theorem enumDecode_of_le {c : Byte} (hc : 2 ^ fieldWidth f ≤ c.toNat) : enumDecode f c = none := by
  rw [enumDecode_enum hk, List.getElem?_eq_none (ht.length ▸ hc)]

/-- Each meaning has a code of the field's width, whose meaning it is. -/
theorem enumEncode_of_mem (hw : fieldWidth f ≤ 8) {m : Meaning} (hm : m ∈ table) :
    ∃ c : Byte, enumEncode f m = some c ∧ enumDecode f c = some m ∧ c.toNat < 2 ^ fieldWidth f := by
  obtain ⟨i, hi, hlt⟩ := codeOf_mem hm
  have hi8 : i < 2 ^ fieldWidth f := ht.length ▸ hlt
  have hmod : (BitVec.ofNat 8 i).toNat = i := by
    rw [BitVec.toNat_ofNat, Nat.mod_eq_of_lt (hi8.trans_le (Nat.pow_le_pow_right (by decide) hw))]
  refine ⟨BitVec.ofNat 8 i, by rw [enumEncode_enum hk, hi, Option.map_some], ?_, hmod.symm ▸ hi8⟩
  rw [enumDecode_enum hk, hmod, codeOf_some hi]

/-- A code of LOCK that neither unlocks nor locks keeps itself (R171). -/
theorem enumDecode_lock_noEffect (hf : f.field = .lock) {c : Byte} (hc : c.toNat < 2 ^ fieldWidth f)
    (hu : enumDecode f c ≠ some .unlock) (hl : enumDecode f c ≠ some .lock) : enumDecode f c = some (.noEffect c) := by
  obtain ⟨m, hm, hd, -⟩ := enumDecode_of_lt hk ht hc
  have hfit := ht.fits m hm
  have hkeep := ht.keeps c.toNat (ht.length ▸ hc)
  rw [enumDecode_enum hk] at hd
  rw [hf] at hfit
  rw [enumDecode_enum hk, hd] at hu hl ⊢
  simp only [keepsCode, hd] at hkeep
  cases m with
  | unlock => exact absurd rfl hu
  | lock => exact absurd rfl hl
  | noEffect x =>
    have hx : x = c := BitVec.eq_of_toNat_eq (by simpa using hkeep)
    rw [hx]
  | _ => exact absurd hfit (by simp [meaningFits])

/-- LOCK has one code that unlocks, one that locks, and every other keeps itself (R171). -/
theorem enumDecode_lock (hw : fieldWidth f ≤ 8) (hf : f.field = .lock) :
    ∃ u k : Byte, u ≠ k ∧ enumDecode f u = some .unlock ∧ enumDecode f k = some .lock
      ∧ ∀ c : Byte, c.toNat < 2 ^ fieldWidth f → c ≠ u → c ≠ k → enumDecode f c = some (.noEffect c) := by
  obtain ⟨u, eu, du, -⟩ := enumEncode_of_mem hk ht hw (ht.unlocks hf)
  obtain ⟨k, ek, dk, -⟩ := enumEncode_of_mem hk ht hw (ht.locks hf)
  refine ⟨u, k, ?_, du, dk, fun c hc hcu hck => ?_⟩
  · rintro rfl
    rw [du] at dk
    cases dk
  · obtain ⟨m, -, hd, he⟩ := enumDecode_of_lt hk ht hc
    refine enumDecode_lock_noEffect hk ht hf hc (fun h => hcu ?_) fun h => hck ?_
    · rw [hd, Option.some.injEq] at h
      rw [h, eu] at he
      exact (Option.some.inj he).symm
    · rw [hd, Option.some.injEq] at h
      rw [h, ek] at he
      exact (Option.some.inj he).symm

end

/-- Settles O12: the table of a row is as long as the field has codes and has no two entries alike; the default codes are read off
the default tables. -/
theorem enumerationsAreBijections : Obligations.EnumerationsAreBijections := by
  refine ⟨fun l f table hl hf hk => ?_, by decide, ⟨⟨.ic1, .sr, 4, 2, .enum Config.tableSr⟩, by decide, by decide⟩,
    ⟨⟨.ic4, .itripLvl, 3, 2, .enum Config.tableItripLvl⟩, by decide, by decide⟩,
    ⟨⟨.ic3, .lock, 6, 4, .enum Config.tableLock⟩, by decide, by decide, by decide⟩⟩
  have hw := layoutOk_fieldWidth_le hl hf
  have ht := tableFits_of_rowOk (layoutOk_row hl hf).1 hk
  exact ⟨getField_lt hw, fun _ => enumDecode_of_lt hk ht, fun _ => enumDecode_of_le hk ht,
    fun _ => enumEncode_of_mem hk ht hw, fun _ => enumEncode_not_mem hk, enumDecode_lock hk ht hw⟩

/-! ### The parameters a block may have (R39, R44, R191) -/

theorem fieldWidth_flag {f : LayoutRow} (hf : f.hi = f.lo) : fieldWidth f = 1 := by simp [fieldWidth, hf]

/-- A flag's code is its bit. -/
theorem getField_flag {f : LayoutRow} (hf : f.hi = f.lo) (v : Byte) :
    getField v f = if v.getLsbD f.lo then 1#8 else 0#8 := by
  apply BitVec.eq_of_getLsbD_eq
  intro i hi
  rw [getLsbD_getField hi, fieldWidth_flag hf]
  rcases i with _ | i <;> cases v.getLsbD f.lo <;> simp

/-- Settles O54: a flag is one bit, and an enumeration's table has an entry for whatever code GET gives. -/
theorem rowsAreOfTheirKind : Obligations.RowsAreOfTheirKind := by
  intro p f hp hf
  have hl : layoutOk p.layout = true := by
    simp only [paramsOk, Bool.and_eq_true] at hp
    exact hp.1.1
  have hrow := (layoutOk_row hl hf).1
  refine ⟨fun hk => ⟨fieldWidth_flag (flag_of_rowOk hrow hk), fun v => ?_⟩, fun table hk => ?_, enum_of_rowOk hrow⟩
  · rw [getField_flag (flag_of_rowOk hrow hk)]
    split <;> simp
  · have ht := tableFits_of_rowOk hrow hk
    refine ⟨ht.length, fun v => ?_⟩
    obtain ⟨m, -, hd, -⟩ := enumDecode_of_lt hk ht (getField_lt (layoutOk_fieldWidth_le hl hf) v)
    exact ⟨m, hd⟩

theorem exists_row_of_meaningUnder {l : Layout} {r : RegName} {n : FieldName} {b : Byte} {m : Meaning}
    (h : meaningUnder l r n b = some m) : ∃ f, findField l r n = some f ∧ enumDecode f (getField b f) = some m :=
  Option.bind_eq_some_iff.1 h

theorem getLsbD_clearFaultMask (p : Params) : (clearFaultMask p).getLsbD p.clrFltBit = true := by
  rw [clearFaultMask, BitVec.getLsbD_shiftLeft]
  simp

/-- Settles O53: the constraints of `paramsOk`, one field each. -/
theorem defaultsHaveTheNormativeMeanings : Obligations.DefaultsHaveTheNormativeMeanings := by
  intro p hp
  simp only [paramsOk, clearFaultBitOk, defaultsOk, Bool.and_eq_true, decide_eq_true_eq] at hp
  obtain ⟨⟨-, hclr⟩, ⟨⟨hmode, hsr⟩, htoff⟩, hitrip⟩ := hp
  refine ⟨exists_row_of_meaningUnder hmode, exists_row_of_meaningUnder hsr, exists_row_of_meaningUnder htoff,
    exists_row_of_meaningUnder hitrip, _, hclr, fun v => ?_⟩
  rw [getField_flag rfl, BitVec.getLsbD_or, getLsbD_clearFaultMask, Bool.true_or, if_pos rfl]

/-! ### Transformations (R22, R114) -/

/-- Settles O15: bit by bit. -/
theorem mergeTakesTheMaskedBits : Obligations.MergeTakesTheMaskedBits := by
  intro n i m d v
  rw [mergeBits, BitVec.getLsbD_or, BitVec.getLsbD_and, BitVec.getLsbD_and, BitVec.getLsbD_not]
  by_cases hi : i < n
  · cases m.getLsbD i <;> simp [hi]
  · simp [BitVec.getLsbD_of_ge _ _ (Nat.le_of_not_lt hi)]

/-- The table of a function: one row for each argument. -/
def tableOf {n : Nat} (f : BitVec n → BitVec n) : FnTable n where
  rows := (List.finRange (2 ^ n)).map fun i => (BitVec.ofFin i, f (BitVec.ofFin i))
  other := 0

/-- A table whose rows all agree with f gives f's value to every argument that has a row. -/
theorem lookupRow_of_agrees {n : Nat} {f : BitVec n → BitVec n} {other v : BitVec n} {rows : List (BitVec n × BitVec n)}
    (hf : ∀ x ∈ rows, x.2 = f x.1) (hv : v ∈ rows.map Prod.fst) : lookupRow other rows v = f v := by
  induction rows with
  | nil => cases hv
  | cons x rows ih =>
    rw [List.forall_mem_cons] at hf
    rw [lookupRow]
    split
    next h => rw [hf.1, h]
    next h => exact ih hf.2 ((List.mem_cons.1 hv).resolve_left h)

theorem applyTable_tableOf {n : Nat} (f : BitVec n → BitVec n) (v : BitVec n) : applyTable (tableOf f) v = f v :=
  lookupRow_of_agrees (by simp [tableOf]) (by simp [tableOf])

/-- Settles O14: by the function's own table. -/
theorem everyPureFunctionIsATransformation : Obligations.EveryPureFunctionIsATransformation :=
  fun _ f => ⟨.table (tableOf f), applyTable_tableOf f⟩

end Sys2Proof.Machine
end

section
/-!
The codecs of the default LAYOUT (R164 to R169). Each field of a codec is a flag or a code at its place in the byte, and both are
read and written bit by bit.
-/

namespace Sys2Proof.Machine

/-! ### Fields by their rows (R160) -/

theorem getField_flagAt {f : LayoutRow} (hf : f.hi = f.lo) (v : Byte) : getField v f = flagAt (v.getLsbD f.lo) 0 := by
  rw [getField_flag hf, flagAt, BitVec.shiftLeft_zero]

theorem getField_extractLsb' {f : LayoutRow} {w : Nat} (hw : fieldWidth f = w) (v : Byte) :
    getField v f = (v.extractLsb' f.lo w).setWidth 8 := by
  apply BitVec.eq_of_getLsbD_eq
  intro i hi
  rw [getLsbD_getField hi, hw, BitVec.getLsbD_setWidth, BitVec.getLsbD_extractLsb']
  simp [hi, Bool.and_comm]

theorem registerRows_default : registerRows Config.defaultLayout .fault = Config.layoutFault
    ∧ registerRows Config.defaultLayout .diag = Config.layoutDiag ∧ registerRows Config.defaultLayout .ic1 = Config.layoutIc1
    ∧ registerRows Config.defaultLayout .ic2 = Config.layoutIc2 ∧ registerRows Config.defaultLayout .ic3 = Config.layoutIc3
    ∧ registerRows Config.defaultLayout .ic4 = Config.layoutIc4 := by decide

/-! ### Bits of a byte that is put together -/

@[simp] theorem getElem_flagAt (b : Bool) (i : Nat) {j : Nat} (hj : j < 8) : (flagAt b i)[j] = (decide (j = i) && b) := by
  rw [flagAt, BitVec.getElem_shiftLeft]
  cases b
  · simp
  · simp only [if_true, BitVec.getElem_one, Bool.and_true]
    rw [← decide_not, ← Bool.decide_and, decide_eq_decide]
    omega

theorem toByteFault_fromByteFault (b : Byte) : toByteFault (fromByteFault b) = b := by
  ext i hi
  interval_cases i <;> simp [toByteFault, fromByteFault]

theorem toByteDiag_fromByteDiag (b : Byte) : toByteDiag (fromByteDiag b) = b := by
  ext i hi
  interval_cases i <;> simp [toByteDiag, fromByteDiag]

theorem toByteIc1_fromByteIc1 (b : Byte) : toByteIc1 (fromByteIc1 b) = b := by
  ext i hi
  interval_cases i <;> simp [toByteIc1, fromByteIc1]

theorem toByteIc2_fromByteIc2 (b : Byte) : toByteIc2 (fromByteIc2 b) = b := by
  ext i hi
  interval_cases i <;> simp [toByteIc2, fromByteIc2]

theorem toByteIc3_fromByteIc3 (b : Byte) : toByteIc3 (fromByteIc3 b) = b := by
  ext i hi
  interval_cases i <;> simp [toByteIc3, fromByteIc3]

theorem toByteIc4_fromByteIc4 (b : Byte) : toByteIc4 (fromByteIc4 b) = b := by
  ext i hi
  interval_cases i <;> simp [toByteIc4, fromByteIc4]

theorem fromByteFault_toByteFault (t : FaultReg) : fromByteFault (toByteFault t) = t := by
  simp [fromByteFault, toByteFault]

theorem fromByteDiag_toByteDiag (t : DiagReg) : fromByteDiag (toByteDiag t) = t := by
  simp [fromByteDiag, toByteDiag]

theorem fromByteIc1_toByteIc1 (t : Ic1Reg) : fromByteIc1 (toByteIc1 t) = t := by
  cases t
  simp only [fromByteIc1, Ic1Reg.mk.injEq]
  refine ⟨?_, ?_, by simp [toByteIc1], ?_⟩
  all_goals
    ext i hi
    interval_cases i <;> simp [toByteIc1]

theorem fromByteIc2_toByteIc2 (t : Ic2Reg) : fromByteIc2 (toByteIc2 t) = t := by
  cases t
  simp only [fromByteIc2, Ic2Reg.mk.injEq]
  refine ⟨?_, ?_, by simp [toByteIc2], by simp [toByteIc2], by simp [toByteIc2], by simp [toByteIc2]⟩
  all_goals
    ext i hi
    interval_cases i <;> simp [toByteIc2]

theorem fromByteIc3_toByteIc3 (t : Ic3Reg) : fromByteIc3 (toByteIc3 t) = t := by
  cases t
  simp only [fromByteIc3, Ic3Reg.mk.injEq]
  refine ⟨by simp [toByteIc3], by simp [toByteIc3], by simp [toByteIc3], by simp [toByteIc3], ?_, by simp [toByteIc3]⟩
  all_goals
    ext i hi
    interval_cases i <;> simp [toByteIc3]

theorem fromByteIc4_toByteIc4 (t : Ic4Reg) : fromByteIc4 (toByteIc4 t) = t := by
  cases t
  simp only [fromByteIc4, Ic4Reg.mk.injEq]
  refine ⟨?_, ?_, by simp [toByteIc4], by simp [toByteIc4], by simp [toByteIc4], by simp [toByteIc4]⟩
  all_goals
    ext i hi
    interval_cases i <;> simp [toByteIc4]

/-- Settles O11: the rows of each register, the bits of each codec both ways. -/
theorem defaultCodecsRoundTrip : Obligations.DefaultCodecsRoundTrip := by
  obtain ⟨hfault, hdiag, h1, h2, h3, h4⟩ := registerRows_default
  refine ⟨fun b => ?_, fun b => ⟨toByteFault_fromByteFault b, toByteDiag_fromByteDiag b, toByteIc1_fromByteIc1 b,
    toByteIc2_fromByteIc2 b, toByteIc3_fromByteIc3 b, toByteIc4_fromByteIc4 b⟩, fromByteFault_toByteFault,
    fromByteDiag_toByteDiag, fromByteIc1_toByteIc1, fromByteIc2_toByteIc2, fromByteIc3_toByteIc3, fromByteIc4_toByteIc4⟩
  have code := fun (f : LayoutRow) => getField_extractLsb' (f := f) rfl b
  have flag := fun (f : LayoutRow) (hf : f.hi = f.lo) => getField_flagAt hf b
  simp only [fromByte, hfault, hdiag, h1, h2, h3, h4, Config.layoutFault, Config.layoutDiag, Config.layoutIc1,
    Config.layoutIc2, Config.layoutIc3, Config.layoutIc4, List.map_cons, List.map_nil, List.cons.injEq, Prod.mk.injEq,
    true_and, and_true]
  exact ⟨⟨flag _ rfl, flag _ rfl, flag _ rfl, flag _ rfl, flag _ rfl, flag _ rfl, flag _ rfl, flag _ rfl⟩,
    ⟨flag _ rfl, flag _ rfl, flag _ rfl, flag _ rfl, flag _ rfl, flag _ rfl, flag _ rfl, flag _ rfl⟩,
    ⟨code _, flag _ rfl, code _, code _⟩,
    ⟨flag _ rfl, flag _ rfl, flag _ rfl, flag _ rfl, code _, code _⟩,
    ⟨flag _ rfl, code _, flag _ rfl, flag _ rfl, flag _ rfl, flag _ rfl⟩,
    ⟨flag _ rfl, flag _ rfl, flag _ rfl, flag _ rfl, code _, code _⟩⟩

end Sys2Proof.Machine
end

section
/-!
Properties carried along a request. `requestOpc` names the operation code a request is accepted under, whatever its
spelling. `Carries P W Q` says that P before a stage leads to W while the stage's event is outstanding, and W to P before
the next stage or to Q where the run ends. It is proved once for a property; the run of an accepted request, the resumption
of a BUSY one and the step then follow from it.
-/

namespace Sys2Proof.Machine

/-! ### Requests by their operation codes (R111, R119) -/

/-- The operation code of the header a request is accepted with. -/
def requestOpc : Instr → BitVec 4
  | .readReg _ | .readFault | .readDiag | .readIc1 | .readIc2 | .readIc3 | .readIc4 => 0x1#4
  | .writeReg _ _ | .writeIc1 _ | .writeIc2 _ | .writeIc3 _ | .writeIc4 _ => 0x2#4
  | .modifyReg _ _ | .modifyIc1 _ _ | .modifyIc2 _ _ | .modifyIc3 _ _ | .modifyIc4 _ _ => 0x3#4
  | .setBits _ _ | .clrBits _ _ => 0x3#4
  | .readConfig => 0x4#4
  | .writeConfig _ | .writeDefaults => 0x5#4
  | .modifyConfig _ => 0x6#4
  | .clearFault => 0x7#4
  | .awaken => 0x8#4
  | .sleep => 0x9#4
  | .reservedOpc0 _ => 0x0#4
  | .reservedOpcA _ => 0xA#4
  | .reservedOpcB _ => 0xB#4
  | .reservedOpcC _ => 0xC#4
  | .reservedOpcD _ => 0xD#4
  | .reservedOpcE _ => 0xE#4
  | .reservedOpcF _ => 0xF#4
  | .wireRead _ | .wireWrite _ _ => 0x0#4

/-- On s, and wherever the parameters and the offers are those of s, i comes to the acceptance of the record r with the
body p. -/
structure AcceptedAs (i : Instr) (s : State) (r : Request) (p : Program) : Prop where
  exec_of : ∀ t : State, t.params = s.params → t.offers = s.offers → exec i t = .next (acceptRequest r p t)
  opc : headerOpc r.header = requestOpc i
  program : validate r.header = none → programOf (requestOpc i) = some p

theorem AcceptedAs.exec_eq {i : Instr} {s : State} {r : Request} {p : Program} (h : AcceptedAs i s r p) :
    exec i s = .next (acceptRequest r p s) :=
  h.exec_of s rfl rfl

theorem offered_congr {s t : State} (h : t.offers = s.offers) : offered t = offered s := by rw [offered, h, offered]

theorem acceptedAs_readRegister {i : Instr} {s : State} {a : Addr} (hx : ∀ t, exec i t = .next (readRegister a t))
    (ho : requestOpc i = 0x1#4) :
    AcceptedAs i s (recordBare (headerWith 0x1000#16 a) (offered s)) readRegProgram :=
  ⟨fun t _ h => by rw [hx, readRegister, offered_congr h], (headerOpc_readReg a).trans ho.symm, fun _ => by rw [ho]; rfl⟩

theorem acceptedAs_writeRegister {i : Instr} {s : State} {a : Addr} {d : Byte}
    (hx : ∀ t, exec i t = .next (writeRegister a d t)) (ho : requestOpc i = 0x2#4) :
    AcceptedAs i s (recordData (headerWith 0x2000#16 a) d (offered s)) writeRegProgram :=
  ⟨fun t _ h => by rw [hx, writeRegister, offered_congr h], (headerOpc_writeReg a).trans ho.symm, fun _ => by rw [ho]; rfl⟩

theorem header_recordRegFn (h : Header) (f : Transform 8) (r : Request) : (recordRegFn h f r).header = h := by
  cases f <;> rfl

theorem header_recordCfgFn (h : Header) (f : Transform 32) (r : Request) : (recordCfgFn h f r).header = h := by
  cases f <;> rfl

theorem acceptedAs_modifyRegister {i : Instr} {s : State} {a : Addr} {f : Transform 8}
    (hx : ∀ t, exec i t = .next (modifyRegister a f t)) (ho : requestOpc i = 0x3#4) :
    AcceptedAs i s (recordRegFn (headerWith 0x3000#16 a) f (offered s)) modifyRegProgram :=
  ⟨fun t _ h => by rw [hx, modifyRegister, offered_congr h], by rw [header_recordRegFn, headerOpc_modifyReg, ho],
    fun _ => by rw [ho]; rfl⟩

theorem acceptedAs_writeBundle {i : Instr} {s : State} {c : Cfg}
    (hx : ∀ t : State, t.params = s.params → exec i t = .next (writeBundle c t)) (ho : requestOpc i = 0x5#4) :
    AcceptedAs i s (recordCfg 0x5000#16 c (offered s)) writeConfigProgram :=
  ⟨fun t hp h => by rw [hx t hp, writeBundle, offered_congr h],
    (show headerOpc 0x5000#16 = 0x5#4 by decide).trans ho.symm, fun _ => by rw [ho]; rfl⟩

/-- A request with a header alone. -/
theorem acceptedAs_bare {i : Instr} {s : State} {h : Header} {p : Program}
    (hx : ∀ t, exec i t = .next (acceptRequest (recordBare h (offered t)) p t)) (ho : headerOpc h = requestOpc i)
    (hp : programOf (requestOpc i) = some p) : AcceptedAs i s (recordBare h (offered s)) p :=
  ⟨fun t _ h => by rw [hx, offered_congr h], ho, fun _ => hp⟩

theorem acceptedAs_modifyConfig (f : Transform 32) (s : State) :
    AcceptedAs (.modifyConfig f) s (recordCfgFn 0x6000#16 f (offered s)) modifyConfigProgram :=
  ⟨fun t _ h => by rw [exec, execModifyConfig, offered_congr h],
    (congrArg headerOpc (header_recordCfgFn _ f _)).trans (by decide : headerOpc 0x6000#16 = 0x6#4), fun _ => rfl⟩

theorem validate_reserved {o : BitVec 4} (ho : o = 0#4 ∨ 10 ≤ o.toNat) (rest : BitVec 12) :
    validate (o ++ rest) = some .reservedOpc := by
  rw [validate, headerOpc_append, if_pos ho]

/-- A reserved operation code is refused as a record with its header is, whatever the program. -/
theorem acceptedAs_refused {i : Instr} {s : State} (rest : BitVec 12) (p : Program)
    (hx : ∀ t, exec i t = .next (refuseRequest .reservedOpc t)) (ho : requestOpc i = 0#4 ∨ 10 ≤ (requestOpc i).toNat) :
    AcceptedAs i s { Request.zero with header := requestOpc i ++ rest } p where
  exec_of t _ _ := by simp only [hx, refuseRequest, acceptRequest, validate_reserved ho]
  opc := headerOpc_append _ rest
  program h := nomatch (validate_reserved ho rest).symm.trans h

/-- Every request is accepted under its operation code. -/
theorem exists_acceptedAs {i : Instr} (hi : IsRequest i) (s : State) : ∃ r p, AcceptedAs i s r p := by
  cases i with
  | readReg | readFault | readDiag | readIc1 | readIc2 | readIc3 | readIc4 =>
    exact ⟨_, _, acceptedAs_readRegister (fun _ => rfl) rfl⟩
  | writeReg | writeIc1 | writeIc2 | writeIc3 | writeIc4 => exact ⟨_, _, acceptedAs_writeRegister (fun _ => rfl) rfl⟩
  | modifyReg | modifyIc1 | modifyIc2 | modifyIc3 | modifyIc4 | setBits | clrBits =>
    exact ⟨_, _, acceptedAs_modifyRegister (fun _ => rfl) rfl⟩
  | writeConfig c => exact ⟨_, _, acceptedAs_writeBundle (fun _ _ => rfl) rfl⟩
  | writeDefaults =>
    exact ⟨_, _, acceptedAs_writeBundle (c := defaultConfig s.params) (fun t hp => by rw [← hp]; rfl) rfl⟩
  | modifyConfig f => exact ⟨_, _, acceptedAs_modifyConfig f s⟩
  | readConfig => exact ⟨_, _, acceptedAs_bare (h := 0x4000#16) (fun _ => rfl) (by decide) rfl⟩
  | clearFault => exact ⟨_, _, acceptedAs_bare (h := 0x7000#16) (fun _ => rfl) (by decide) rfl⟩
  | awaken => exact ⟨_, _, acceptedAs_bare (h := 0x8000#16) (fun _ => rfl) (by decide) rfl⟩
  | sleep => exact ⟨_, _, acceptedAs_bare (h := 0x9000#16) (fun _ => rfl) (by decide) rfl⟩
  | reservedOpc0 rest | reservedOpcA rest | reservedOpcB rest | reservedOpcC rest | reservedOpcD rest
  | reservedOpcE rest | reservedOpcF rest =>
    exact ⟨_, _, acceptedAs_refused rest readRegProgram (fun _ => rfl) (by simp [requestOpc])⟩
  | wireRead | wireWrite => exact hi.elim

/-! ### Along a request -/

/-- P holds between two events, W while one is outstanding, Q of what a run ends in. -/
structure Carries (P : List Stage → State → Prop) (W : Stage → List Stage → State → Prop) (Q : State → Prop) : Prop where
  atEnd : ∀ s, Between [] s → P [] s → Q (complete .ok false s)
  issues : ∀ g gs s, Between (g :: gs) s → P (g :: gs) s → W g gs (issue (g.event s) s)
  waits : ∀ g gs s t, Waiting g gs s → W g gs s → awaitAnswer (g.event s) s = .waiting t → Q t
  fails : ∀ g gs s e w t, Waiting g gs s → W g gs s → awaitAnswer (g.event s) s = .failed e w t → Q (complete e w t)
  goesOn : ∀ g gs s t, Waiting g gs s → W g gs s → awaitAnswer (g.event s) s = .answered t → P gs (g.done t)

namespace Carries
variable {P : List Stage → State → Prop} {W : Stage → List Stage → State → Prop} {Q : State → Prop} (hc : Carries P W Q)
include hc

theorem runStages {gs : List Stage} {s : State} (hb : Between gs s) (hP : P gs s) : Q (runStages gs s) :=
  run_induct hc.atEnd hc.issues hc.waits hc.fails hc.goesOn gs s hb hP

/-- The run of an accepted request. -/
theorem accepted {r : Request} {p : Program} {s : State} (hv : validate r.header = none)
    (hp : programOf (headerOpc r.header) = some p) (hP : P (p.stages (latch r s)) (p.start (latch r s))) :
    Q (Machine.runStages (p.stages (latch r s)) (p.start (latch r s))) :=
  hc.runStages (between_start hv hp) hP

/-- A request by `exec`, from IDLE. -/
theorem exec {i : Instr} {s t : State} (hi : IsRequest i) (hs : s.phase = .idle) (hx : exec i s = .next t)
    (refuses : ∀ sub, Q (refuse sub s))
    (starts : ∀ r p, validate r.header = none → headerOpc r.header = requestOpc i →
      programOf (headerOpc r.header) = some p → P (p.stages (latch r s)) (p.start (latch r s))) : Q t := by
  obtain ⟨r, p, ha⟩ := exists_acceptedAs hi s
  obtain rfl : acceptRequest r p s = t := by simpa [ha.exec_eq] using hx
  cases hv : validate r.header with
  | some sub => exact acceptRequest_refused p hs hv ▸ refuses sub
  | none =>
    have hp : programOf (headerOpc r.header) = some p := ha.opc ▸ ha.program hv
    exact acceptRequest_valid p hs hv ▸ hc.accepted hv hp (starts r p hv ha.opc hp)

/-- A step of a BUSY block. -/
theorem busyStep {s t : State} (hi : SequencerInv s) (hs : s.phase = .busy) (hx : step s = .next t)
    (resumes : ∀ g gs, Waiting g gs s → W g gs s) : Q t :=
  step_induct hi hx (fun h => nomatch hs.symm.trans h) (fun _ _ _ h => nomatch hs.symm.trans h)
    (fun _ _ _ h => nomatch hs.symm.trans h) (fun g gs _ => resumes g gs) hc.atEnd hc.issues hc.waits hc.fails hc.goesOn

/-- Any step from a state that meets the sequencer's invariant. -/
theorem step {s t : State} (hi : SequencerInv s) (hx : step s = .next t) (stays : s.phase = .idle → Q s)
    (refuses : ∀ sub, s.phase = .idle → Q (refuse sub s))
    (starts : ∀ r p, s.phase = .idle → validate r.header = none → programOf (headerOpc r.header) = some p →
      P (p.stages (latch r s)) (p.start (latch r s)))
    (resumes : ∀ g gs, s.phase = .busy → Waiting g gs s → W g gs s) : Q t :=
  step_induct hi hx stays (fun _ _ sub hs _ _ => refuses sub hs) (fun r _ p hs _ hv hp => starts r p hs hv hp) resumes
    hc.atEnd hc.issues hc.waits hc.fails hc.goesOn

end Carries

/-! ### The sequencer's invariant (R12, R23) -/

theorem carries_rest : Carries (fun _ _ => True) (fun _ _ _ => True) Rest where
  atEnd _ hb _ := .inl ⟨rfl, hb.quiet⟩
  issues _ _ _ _ _ := trivial
  waits g gs _ _ hw _ hA := .inr ⟨g, gs, waiting_waits hw hA⟩
  fails _ _ _ _ _ _ _ _ hA := by
    obtain ⟨-, -, ho, -⟩ := failed_keeps hA
    exact .inl ⟨rfl, ho⟩
  goesOn _ _ _ _ _ _ _ := trivial

/-- Settles O36: a step ends IDLE with nothing outstanding, or waiting for the event of a stage. -/
theorem stepKeepsTheSequencerInvariant : Obligations.StepKeepsTheSequencerInvariant := by
  intro s t hi hx
  exact rest_inv (carries_rest.step hi hx (fun hs => .inl ⟨hs, hi.idleQuiet hs⟩) (fun _ hs => .inl ⟨hs, hi.idleQuiet hs⟩)
    (fun _ _ _ _ _ => trivial) fun _ _ _ _ => trivial)

/-- Settles O39: the latched operation code of a BUSY block has a program. -/
theorem noStepStops : Obligations.NoStepStops := by
  intro s hi
  cases hs : s.phase with
  | busy =>
    obtain ⟨p, -, hp, -⟩ := hi.busyStage hs
    exact ⟨resume p s, by simp only [step, hs, continueBusy, hp]⟩
  | idle =>
    cases ho : s.offers with
    | nil => exact ⟨s, by simp only [step, hs, ho]⟩
    | cons r more =>
      rcases step_offer hs ho with ⟨sub, -, hx⟩ | ⟨-, p, -, hx⟩
      · exact ⟨_, hx⟩
      · exact ⟨_, hx⟩

/-! ### The history's invariant (R338) -/

theorem carries_historyInv :
    Carries (fun _ _ => True) (fun _ _ s => s.history.getLast? = s.outstanding) HistoryInv where
  atEnd _ _ _ := ⟨(nomatch ·)⟩
  issues _ _ _ _ _ := by simp
  waits _ _ _ _ _ hl hA := by
    obtain ⟨-, -, -, -, ho, -, -, hh, -⟩ := take_keeps hA
    exact ⟨fun _ => by rw [hh, ho, hl]⟩
  fails _ _ _ _ _ _ _ _ _ := ⟨(nomatch ·)⟩
  goesOn _ _ _ _ _ _ _ := trivial

/-- Settles O56: an event that is outstanding is the last one issued, from its issue on. -/
theorem stepKeepsTheHistoryInvariant : Obligations.StepKeepsTheHistoryInvariant := by
  intro s t hi hh hx
  exact carries_historyInv.step hi hx (fun _ => hh) (fun _ hs => ⟨fun hb => nomatch hs.symm.trans hb⟩)
    (fun _ _ _ _ _ => trivial) fun _ _ hb _ => hh.lastWaitedFor hb

/-! ### The event index (R23) -/

/-- From a point with k = a and a history of b events, `k` has gone up by one with each event, and is no more than 8. -/
structure CountsFrom (a b : Nat) (t : State) : Prop where
  counts : t.history.length + a = b + t.k.toNat
  bound : t.k.toNat ≤ 8

theorem CountsFrom.of_eq {a b : Nat} {s t : State} (h : CountsFrom a b s) (hh : t.history = s.history) (hk : t.k = s.k) :
    CountsFrom a b t :=
  ⟨by rw [hh, hk, h.counts], hk ▸ h.bound⟩

/-- No more events than stages: `k` tells the stage whose event is outstanding. -/
theorem Waiting.k_le {g : Stage} {gs : List Stage} {s : State} (hw : Waiting g gs s) : s.k.toNat ≤ 8 := by
  obtain ⟨p, hp, pre, hst, hk⟩ := hw.point
  have hlen := stages_length hp s
  simp only [hst, List.length_append, List.length_cons] at hlen
  omega

theorem carries_countsFrom (a b : Nat) :
    Carries (fun _ => CountsFrom a b) (fun _ _ => CountsFrom a b) (CountsFrom a b) where
  atEnd _ _ h := h.of_eq rfl rfl
  issues g gs s hb h := by
    obtain ⟨hw, hk⟩ := between_issue hb
    have hc := h.counts
    refine ⟨?_, hw.k_le⟩
    rw [hk, issue_history, List.length_append, List.length_singleton]
    omega
  waits _ _ _ _ _ h hA := by
    obtain ⟨-, -, -, hk, -, -, -, hh, -⟩ := take_keeps hA
    exact h.of_eq hh hk
  fails _ _ _ _ _ _ _ h hA := by
    obtain ⟨-, hk, -, -, hh, -⟩ := failed_keeps hA
    exact h.of_eq hh hk
  goesOn g _ _ _ hw h hA := by
    obtain ⟨-, -, -, hk, -, -, hh, -⟩ := answered_keeps hA
    have L := hw.laws g List.mem_cons_self
    exact h.of_eq ((L.history _).trans hh) ((L.k _).trans hk)

theorem start_k {o : BitVec 4} {p : Program} (h : programOf o = some p) (s : State) : (p.start s).k = s.k := by
  cases o, p, h using programOf_elim <;> rfl

/-- Settles O47: counted from the acceptance, or from the state that the step finds. -/
theorem theEventIndexCountsTheEvents : Obligations.TheEventIndexCountsTheEvents := by
  constructor
  · intro s t r more hs ho hv hx
    rcases step_offer hs ho with ⟨sub, hv', -⟩ | ⟨-, p, hp, hx'⟩
    · exact nomatch hv.symm.trans hv'
    · obtain rfl : _ = t := by simpa [hx'] using hx
      obtain ⟨-, -, hh, -⟩ := start_keeps hp (latch r s)
      have hstart : CountsFrom 0 s.history.length (p.start (latch r s)) :=
        ⟨by rw [hh, start_k hp]; rfl, by rw [start_k hp]; exact Nat.zero_le 8⟩
      have h := (carries_countsFrom 0 s.history.length).accepted hv hp hstart
      exact ⟨h.counts, h.bound⟩
  · intro s t hi hs hx
    have h := (carries_countsFrom s.k.toNat s.history.length).busyStep hi hs hx fun _ _ hw => ⟨rfl, hw.k_le⟩
    exact ⟨h.counts, h.bound⟩

/-! ### What no step changes (R29, R310, R370) -/

theorem step_untouched {α : Type} {view : State → α} (u : Untouched view)
    (hstart : ∀ r p s, programOf (headerOpc r.header) = some p → view (p.start (latch r s)) = view s)
    (hrefuse : ∀ sub s, view (refuse sub s) = view s)
    (hdone : ∀ g, StageLaws g → ∀ s, view (g.done s) = view s) {s t : State} (h : step s = .next t) : view t = view s := by
  rcases step_cases h with ⟨-, -, rfl⟩ | ⟨-, r, more, sub, -, -, rfl⟩ | ⟨-, r, more, p, -, -, hp, rfl⟩ | ⟨-, p, hp, rfl⟩
  · rfl
  · exact hrefuse sub s
  · rw [u.runStages (fun g hg => hdone g (stageLaws hp _ g hg)), hstart r p s hp]
  · exact u.resume fun g hg => hdone g (stageLaws hp s g hg)

theorem start_lines {o : BitVec 4} {p : Program} (h : programOf o = some p) (s : State) :
    (p.start s).disableLine = s.disableLine ∧ (p.start s).faultLine = s.faultLine := by
  cases o, p, h using programOf_elim <;> exact ⟨rfl, rfl⟩

/-- Settles O40: none of the sequencer's operations writes the parameters or the two lines, and no stage does. -/
theorem stepsKeepTheParametersAndTheUnusedPins : Obligations.StepsKeepTheParametersAndTheUnusedPins := fun _ _ hx =>
  ⟨step_untouched untouched_params (fun _ _ _ hp => (start_keeps hp _).1) (fun _ _ => rfl) (fun _ L => L.params) hx,
    step_untouched untouched_disableLine (fun _ _ _ hp => (start_lines hp _).1) (fun _ _ => rfl)
      (fun _ L s => (L.lines s).1) hx,
    step_untouched untouched_faultLine (fun _ _ _ hp => (start_lines hp _).2) (fun _ _ => rfl)
      (fun _ L s => (L.lines s).2) hx⟩

end Sys2Proof.Machine
end

section
/-!
The stages of the nine requests: those of a register request are exchanges that leave the sleep FSM alone, AWAKEN and SLEEP set the
pin, wait, and then change S. `StagePlace` says where a stage of a request stands; the power invariant, the legality of the events
and the frames of the requests are read off it.
-/

namespace Sys2Proof.Machine

/-! ### Stages by their kind (R232, R300, R308) -/

/-- A stage that issues an exchange, and leaves S and the level driven alone. -/
structure RegisterStage (g : Stage) : Prop where
  event : ∀ s, ∃ sent, g.event s = .exchange sent
  sleep : ∀ s, (g.done s).sleep = s.sleep
  sleepLatch : ∀ s, (g.done s).sleepLatch = s.sleepLatch

theorem registerStage_xread (addr : State → Nat) {keep : Byte → State → State}
    (hs : ∀ v s, (keep v s).sleep = s.sleep) (hl : ∀ v s, (keep v s).sleepLatch = s.sleepLatch) :
    RegisterStage (xread addr keep) :=
  ⟨fun _ => ⟨_, rfl⟩, fun _ => hs _ _, fun _ => hl _ _⟩

theorem registerStage_xwrite (addr : State → Nat) (v : State → Byte) : RegisterStage (xwrite addr v) :=
  ⟨fun _ => ⟨_, rfl⟩, fun _ => rfl, fun _ => rfl⟩

theorem registerStage_readPhase (batched : Bool) {keep : Cfg → State → State}
    (hs : ∀ c s, (keep c s).sleep = s.sleep) (hl : ∀ c s, (keep c s).sleepLatch = s.sleepLatch) :
    ∀ g ∈ readPhase batched keep, RegisterStage g := by
  cases batched with
  | false =>
    have first : ∀ i, RegisterStage (xread (fun _ => bundleAddr i) (setBundle i)) := fun i =>
      registerStage_xread _ (fun _ _ => rfl) fun _ _ => rfl
    simp only [readPhase, Bool.false_eq_true, if_false, List.forall_mem_cons]
    exact ⟨first 0, first 1, first 2, registerStage_xread _ (fun _ _ => hs _ _) fun _ _ => hl _ _, List.forall_mem_nil _⟩
  | true => exact List.forall_mem_singleton.2 ⟨fun _ => ⟨_, rfl⟩, fun _ => hs _ _, fun _ => hl _ _⟩

theorem registerStage_writePhase (batched : Bool) : ∀ g ∈ writePhase batched, RegisterStage g := by
  cases batched with
  | false => simp [writePhase, registerStage_xwrite]
  | true => exact List.forall_mem_singleton.2 ⟨fun _ => ⟨_, rfl⟩, fun _ => rfl, fun _ => rfl⟩

/-- The stages of every request but AWAKEN and SLEEP are register stages. -/
theorem stages_registerStage {o : BitVec 4} {p : Program} (h : programOf o = some p) (h8 : o ≠ 0x8#4) (h9 : o ≠ 0x9#4)
    (s : State) : ∀ g ∈ p.stages s, RegisterStage g := by
  cases o, p, h using programOf_elim with
  | readReg => exact List.forall_mem_singleton.2 (registerStage_xread _ (fun _ _ => rfl) fun _ _ => rfl)
  | writeReg => exact List.forall_mem_singleton.2 (registerStage_xwrite _ _)
  | modifyReg | clearFault =>
    exact List.forall_mem_cons.2 ⟨registerStage_xread _ (fun _ _ => rfl) fun _ _ => rfl,
      List.forall_mem_singleton.2 (registerStage_xwrite _ _)⟩
  | readConfig => exact registerStage_readPhase _ (fun _ _ => rfl) fun _ _ => rfl
  | writeConfig => exact registerStage_writePhase _
  | modifyConfig =>
    exact List.forall_mem_append.2 ⟨registerStage_readPhase _ (fun _ _ => rfl) fun _ _ => rfl, registerStage_writePhase _⟩
  | awaken => exact absurd rfl h8
  | sleep => exact absurd rfl h9

/-- The stage that drives the sleep output. -/
def pinStage (l : PinLevel) : Stage := ⟨fun _ => .pinSet l, setSleepLatch l⟩

/-- The stage that waits and then changes S. -/
def delayStage (wait : Params → Nat) (x : SleepState) : Stage := ⟨fun s => .delay (wait s.params), setSleep x⟩

/-- The level, the wait and the new S of the operation codes AWAKEN and SLEEP (R303, R304). -/
inductive PowerCode : BitVec 4 → PinLevel → (Params → Nat) → SleepState → Prop
  | awaken : PowerCode 0x8#4 .high Params.tWakeUs .awake
  | sleep : PowerCode 0x9#4 .low Params.tSleepUs .asleep

/-- Where the stage g stands in the request of code o taken up at s, with the stages `pre` before it and gs after it. -/
inductive StagePlace (o : BitVec 4) (s : State) : List Stage → Stage → List Stage → Prop
  | register {pre : List Stage} {g : Stage} {gs : List Stage} (h8 : o ≠ 0x8#4) (h9 : o ≠ 0x9#4)
      (stages : ∀ g' ∈ g :: gs, RegisterStage g') : StagePlace o s pre g gs
  | pin {l : PinLevel} {wait : Params → Nat} {x : SleepState} (code : PowerCode o l wait x)
      (hasPin : s.params.hasSleepPin = true) (acts : s.sleep ≠ x) : StagePlace o s [] (pinStage l) [delayStage wait x]
  | delay {l : PinLevel} {wait : Params → Nat} {x : SleepState} (code : PowerCode o l wait x)
      (hasPin : s.params.hasSleepPin = true) (acts : s.sleep ≠ x) :
      StagePlace o s [pinStage l] (delayStage wait x) []

/-- The two stages of an acting power request. -/
theorem stagePlace_power {o : BitVec 4} {l : PinLevel} {wait : Params → Nat} {x : SleepState} (code : PowerCode o l wait x)
    {s : State} {pre gs : List Stage} {g : Stage}
    (h : (if s.params.hasSleepPin = false ∨ s.sleep = x then [] else [pinStage l, delayStage wait x]) = pre ++ g :: gs) :
    StagePlace o s pre g gs := by
  split at h
  next => simp at h
  next hn =>
    rw [not_or, Bool.not_eq_false] at hn
    match pre with
    | [] =>
      obtain ⟨rfl, rfl⟩ := List.cons.inj h
      exact .pin code hn.1 hn.2
    | [g'] =>
      obtain ⟨rfl, h'⟩ := List.cons.inj h
      obtain ⟨rfl, rfl⟩ := List.cons.inj h'
      exact .delay code hn.1 hn.2
    | _ :: _ :: _ => simp at h

theorem stagePlace {o : BitVec 4} {p : Program} (hp : programOf o = some p) {s : State} {pre gs : List Stage} {g : Stage}
    (h : p.stages s = pre ++ g :: gs) : StagePlace o s pre g gs := by
  by_cases h8 : o = 0x8#4
  · subst h8
    cases hp
    exact stagePlace_power .awaken h
  by_cases h9 : o = 0x9#4
  · subst h9
    cases hp
    exact stagePlace_power .sleep h
  · exact .register h8 h9 fun g' hg => stages_registerStage hp h8 h9 s g' (h ▸ List.mem_append_right pre hg)

theorem Between.place {g : Stage} {gs : List Stage} {s : State} (hb : Between (g :: gs) s) :
    ∃ pre, StagePlace s.req.opc s pre g gs := by
  obtain ⟨p, hp, hx⟩ := hb.point
  obtain ⟨pre, hst, -⟩ := hx (List.cons_ne_nil _ _)
  exact ⟨pre, stagePlace hp hst⟩

theorem Waiting.place {g : Stage} {gs : List Stage} {s : State} (hw : Waiting g gs s) :
    ∃ pre, StagePlace s.req.opc s pre g gs ∧ s.k.toNat = pre.length + 1 := by
  obtain ⟨p, hp, pre, hst, hk⟩ := hw.point
  exact ⟨pre, stagePlace hp hst, hk⟩

/-- A stage of a request is one of the stages its program has in the state it stands in. -/
theorem Between.mem_stages {g : Stage} {gs : List Stage} {s : State} (hb : Between (g :: gs) s) :
    ∃ p, programOf s.req.opc = some p ∧ g ∈ p.stages s := by
  obtain ⟨p, hp, hx⟩ := hb.point
  obtain ⟨pre, hst, -⟩ := hx (List.cons_ne_nil _ _)
  exact ⟨p, hp, by simp [hst]⟩

/-! ### What the answer to an event leaves alone -/

/-- The state in which the wait for an answer ends. -/
def Answer.state : Answer → State
  | .waiting t | .failed _ _ t | .answered t => t

@[simp] theorem Answer.state_waiting (t : State) : (Answer.waiting t).state = t := rfl
@[simp] theorem Answer.state_failed (e : Err) (w : Bool) (t : State) : (Answer.failed e w t).state = t := rfl
@[simp] theorem Answer.state_answered (t : State) : (Answer.answered t).state = t := rfl

/-- The answer to an exchange leaves the sleep FSM and the answers of the other two agents alone. -/
theorem await_exchange_keeps (sent : List Byte) (s : State) :
    (awaitAnswer (.exchange sent) s).state.sleep = s.sleep
      ∧ (awaitAnswer (.exchange sent) s).state.sleepLatch = s.sleepLatch
      ∧ (awaitAnswer (.exchange sent) s).state.sleepPin = s.sleepPin
      ∧ (awaitAnswer (.exchange sent) s).state.delay = s.delay := by
  simp only [awaitAnswer]
  cases nextBusReply s <;> simp

/-- The answer to a pin set or a delay leaves the buffers, the mark, the transport's answers, the level driven and the result
alone. -/
theorem await_power_keeps {e : Event} (he : isExchange e = false) (s : State) :
    (awaitAnswer e s).state.tx = s.tx ∧ (awaitAnswer e s).state.rx = s.rx
      ∧ (awaitAnswer e s).state.asleepAccess = s.asleepAccess ∧ (awaitAnswer e s).state.transport = s.transport
      ∧ (awaitAnswer e s).state.sleepLatch = s.sleepLatch ∧ (awaitAnswer e s).state.res = s.res := by
  cases e with
  | exchange sent => cases he
  | pinSet l =>
    simp only [awaitAnswer]
    cases nextPinReply s <;> simp
  | delay us =>
    simp only [awaitAnswer]
    cases nextDelayReply s <;> simp

/-! ### The power invariant (R21, R300, R306, R309) -/

/-- The invariant reads no more than this. -/
theorem PowerInv.of_eq {s t : State} (h : PowerInv s) (hpar : t.params = s.params) (hs : t.sleep = s.sleep)
    (hl : t.sleepLatch = s.sleepLatch) (ho : t.outstanding = s.outstanding) (hr : t.req = s.req) : PowerInv t := by
  obtain ⟨h1, h2, h3, h4⟩ := h
  constructor <;> simpa only [hpar, hs, hl, ho, hr]

/-- Where no delay is outstanding before or after, it is S and the level that count. -/
theorem PowerInv.of_quiet {s t : State} (h : PowerInv s) (hpar : t.params = s.params) (hs : t.sleep = s.sleep)
    (hl : t.sleepLatch = s.sleepLatch) (hso : ∀ us, s.outstanding ≠ some (.delay us))
    (hto : ∀ us, t.outstanding ≠ some (.delay us)) : PowerInv t where
  absentPin := by rw [hpar, hs]; exact h.absentPin
  latchExists := by rw [hpar, hl]; exact h.latchExists
  latchSpeaks _ := by rw [hpar, hs, hl]; exact h.latchSpeaks hso
  delaying us hus := absurd hus (hto us)

/-- While the delay of a power request runs, the line is driven and S is not yet changed. -/
theorem PowerCode.delaying {o : BitVec 4} {l : PinLevel} {wait : Params → Nat} {x : SleepState} (code : PowerCode o l wait x)
    (p : Params) {z : SleepState} {y : Option PinLevel} (hz : z ≠ x) (hy : y = some l) :
    (o = 0x8#4 ∧ wait p = p.tWakeUs ∧ z ≠ .awake ∧ y = some .high)
      ∨ (o = 0x9#4 ∧ wait p = p.tSleepUs ∧ z ≠ .asleep ∧ y = some .low) := by
  cases code with
  | awaken => exact .inl ⟨rfl, rfl, hz, hy⟩
  | sleep => exact .inr ⟨rfl, rfl, hz, hy⟩

/-- The line that is driven while the delay runs is the request's own. -/
theorem PowerInv.latch_of_delay {s : State} (h : PowerInv s) {l : PinLevel} {wait : Params → Nat} {x : SleepState}
    (code : PowerCode s.req.opc l wait x) {us : Nat} (ho : s.outstanding = some (.delay us)) : s.sleepLatch = some l := by
  rcases h.delaying us ho with ⟨h8, -, -, hl⟩ | ⟨h9, -, -, hl⟩
  · rw [h8] at code
    cases code
    exact hl
  · rw [h9] at code
    cases code
    exact hl

/-- s as it will be once the next event has been issued, if there is one. -/
def withNextEvent (gs : List Stage) (s : State) : State := { s with outstanding := gs.head?.map fun g => g.event s }

theorem withNextEvent_ne_delay {gs : List Stage} (h : ∀ g ∈ gs, RegisterStage g) (s : State) (us : Nat) :
    (withNextEvent gs s).outstanding ≠ some (.delay us) := by
  cases gs with
  | nil => exact (nomatch ·)
  | cons g gs =>
    obtain ⟨sent, he⟩ := (h g List.mem_cons_self).event s
    simp [withNextEvent, he]

theorem carries_powerInv :
    Carries (fun gs s => PowerInv (withNextEvent gs s)) (fun _ _ => PowerInv) PowerInv where
  atEnd s hb h := h.of_eq rfl rfl rfl hb.quiet rfl
  issues g gs s hb h := h.of_eq (by simp [withNextEvent]) (by simp [withNextEvent]) (by simp [withNextEvent])
    (by simp [withNextEvent]) (by simp [withNextEvent])
  waits g gs s t _ h hA := by
    obtain ⟨hpar, hsl, -, -, ho, hr, -, -, -, hl, -⟩ := take_keeps hA
    exact h.of_eq hpar hsl hl ho hr
  fails g gs s e w t hw h hA := by
    obtain ⟨pre, hpl, -⟩ := hw.place
    obtain ⟨hpar, -, hout, -, -, -, hl, -⟩ := failed_keeps hA
    rcases awaitAnswer_failed hA with ⟨sent, he, -, -, -, rfl⟩ | ⟨l, he, -, -, -, rfl⟩
    · exact h.of_quiet (by simp) (by simp) (by simp) (by simp [hw.out, he]) (by simp)
    · cases hpl with
      | register _ _ hreg =>
        obtain ⟨sent, he'⟩ := (hreg g List.mem_cons_self).event s
        exact nomatch he.symm.trans he'
      | delay => exact nomatch he
      | pin _ hpin _ =>
        exact ⟨by simp [hpin], by simpa using h.latchExists, fun _ => by simp, by simp⟩
  goesOn g gs s t hw h hA := by
    obtain ⟨pre, hpl, -⟩ := hw.place
    obtain ⟨hpar, hsl, -, -, -, hr, -, -, hl, -⟩ := answered_keeps hA
    have L := hw.laws g List.mem_cons_self
    cases hpl with
    | register _ _ hreg =>
      have G := hreg g List.mem_cons_self
      obtain ⟨sent, he⟩ := G.event s
      exact h.of_quiet ((L.params t).trans hpar) ((G.sleep t).trans hsl) ((G.sleepLatch t).trans hl)
        (by simp [hw.out, he]) (withNextEvent_ne_delay (fun g' hg => hreg g' (List.mem_cons_of_mem _ hg)) _)
    | pin code hpin hne =>
      have hpin' : t.params.hasSleepPin = true := hpar ▸ hpin
      refine ⟨by simp [withNextEvent, pinStage, hpin'], by simp [withNextEvent, pinStage, hpin'],
        fun hn => absurd rfl (hn _), fun us hus => ?_⟩
      obtain rfl : _ = us := Event.delay.inj (Option.some.inj hus)
      rw [← hr] at code
      exact code.delaying t.params (hsl ▸ hne) rfl
    | delay code hpin hne =>
      have hpin' : t.params.hasSleepPin = true := hpar ▸ hpin
      have hlatch : t.sleepLatch = _ := hl.trans (h.latch_of_delay code hw.out)
      refine ⟨by simp [withNextEvent, delayStage, hpin'], by simp [withNextEvent, delayStage, hpin', hlatch], fun _ => ?_,
        fun us hus => nomatch hus⟩
      generalize s.req.opc = o at code
      cases code <;> simp [withNextEvent, delayStage, hlatch]

theorem start_sleepLatch {o : BitVec 4} {p : Program} (h : programOf o = some p) (s : State) :
    (p.start s).sleepLatch = s.sleepLatch := by
  cases o, p, h using programOf_elim <;> rfl

/-- The first event of a request is no delay. -/
theorem withNextEvent_stages_ne_delay {o : BitVec 4} {p : Program} (hp : programOf o = some p) (s t : State) (us : Nat) :
    (withNextEvent (p.stages s) t).outstanding ≠ some (.delay us) := by
  cases hg : p.stages s with
  | nil => exact (nomatch ·)
  | cons g gs =>
    cases stagePlace hp (pre := []) hg with
    | register _ _ hreg => exact withNextEvent_ne_delay hreg t us
    | pin => exact (nomatch ·)

/-- Settles O37: along the stages of a request, with the next event counted as issued. -/
theorem stepKeepsThePowerInvariant : Obligations.StepKeepsThePowerInvariant := by
  intro s t hi hinv hx
  have quiet : s.phase = .idle → ∀ us, s.outstanding ≠ some (.delay us) := fun hs us => by simp [hi.idleQuiet hs]
  refine carries_powerInv.step hi hx (fun _ => hinv) (fun sub _ => hinv.of_eq rfl rfl rfl rfl rfl) ?_ fun _ _ _ _ => hinv
  intro r p hs hv hp
  obtain ⟨hpar, hsl, -, -⟩ := start_keeps hp (latch r s)
  exact hinv.of_quiet hpar hsl (start_sleepLatch hp _) (quiet hs) (withNextEvent_stages_ne_delay hp _ _)

end Sys2Proof.Machine
end

section
/-!
The events a step issues are legal (R11, R101, R116, R117, R121, R301). The latched header has passed VALIDATE, so the address of a
register request is one that the block may put on the wire; the other requests address IC1 to IC4.
-/

namespace Sys2Proof.Machine

/-! ### Frames on the wire (R116, R121) -/

theorem legalFrames_read {a : Addr} (ha : addrReadable a = true) (rest : List Byte) :
    legalFrames (frameRead a.toNat ++ rest) = legalFrames rest := by
  have hd : decodeFrame (frameBits [cmdRead a.toNat, Config.dummyByte]) = .ok (.wireRead a) := decodeFrame_read a
  simp [frameRead, legalFrames, hd, Instr.wf, ha]

theorem legalFrames_write {a : Addr} (ha : addrWritable a = true) (d : Byte) (rest : List Byte) :
    legalFrames (frameWrite a.toNat d ++ rest) = legalFrames rest := by
  have hd : decodeFrame (frameBits [cmdWrite a.toNat, d]) = .ok (.wireWrite a d) := decodeFrame_write a d
  simp [frameWrite, legalFrames, hd, Instr.wf, ha]

theorem legalEvent_read (p : Params) {a : Addr} (ha : addrReadable a = true) :
    legalEvent p (.exchange (frameRead a.toNat)) = true := by
  have h : legalFrames (frameRead a.toNat) = true := by simpa [legalFrames] using legalFrames_read ha []
  rw [legalEvent, h]
  rfl

theorem legalEvent_write (p : Params) {a : Addr} (ha : addrWritable a = true) (d : Byte) :
    legalEvent p (.exchange (frameWrite a.toNat d)) = true := by
  have h : legalFrames (frameWrite a.toNat d) = true := by simpa [legalFrames] using legalFrames_write ha d []
  rw [legalEvent, h]
  rfl

theorem legalEvent_batchRead (p : Params) : legalEvent p (.exchange batchReadBytes) = true := by
  simp only [legalEvent]
  decide

theorem legalEvent_batchWrite (p : Params) (c : Cfg) : legalEvent p (.exchange (batchWriteBytes c)) = true := by
  have frame : ∀ (i : Fin 4) (d : Byte) (rest : List Byte),
      legalFrames (frameWrite (bundleAddr i) d ++ rest) = legalFrames rest := by
    intro i
    have ha : addrWritable (BitVec.ofNat 5 (bundleAddr i)) = true ∧ (BitVec.ofNat 5 (bundleAddr i)).toNat = bundleAddr i := by
      revert i
      decide
    simpa only [ha.2] using legalFrames_write ha.1
  have h := (frame 0 (cfgByte c 0) _).trans ((frame 1 (cfgByte c 1) _).trans ((frame 2 (cfgByte c 2) _).trans
    (frame 3 (cfgByte c 3) [])))
  exact h

/-! ### The stages of a valid request (R112, R220) -/

theorem headerOpc_latchHeader (q : ReqLatch) : headerOpc (latchHeader q) = q.opc := headerOpc_concat _ _
theorem headerRsv_latchHeader (q : ReqLatch) : headerRsv (latchHeader q) = 0#7 := headerRsv_concat _ _
theorem headerAddr_latchHeader (q : ReqLatch) : headerAddr (latchHeader q) = q.addr := headerAddr_concat _ _

theorem addrReadable_of_valid {q : ReqLatch} (hv : validate (latchHeader q) = none) (ho : q.opc = 1#4) :
    addrReadable q.addr = true := by
  simpa [validate, headerOpc_latchHeader, headerRsv_latchHeader, headerAddr_latchHeader, ho, addrReadable] using hv

theorem addrWritable_of_valid {q : ReqLatch} (hv : validate (latchHeader q) = none) (ho : q.opc = 2#4 ∨ q.opc = 3#4) :
    addrWritable q.addr = true := by
  have h : (if 5 < q.addr.toNat then some MisuseSub.addrRange
      else if q.addr.toNat ≤ 1 then some .readOnly else none) = none := by
    rcases ho with ho | ho <;>
      simpa [validate, headerOpc_latchHeader, headerRsv_latchHeader, headerAddr_latchHeader, ho] using hv
  split_ifs at h
  simp only [addrWritable, decide_eq_true_eq]
  omega

theorem legalEvent_readPhase {batched : Bool} {keep : Cfg → State → State} (s : State) :
    ∀ g ∈ readPhase batched keep, legalEvent s.params (g.event s) = true := by
  cases batched with
  | false =>
    simp only [readPhase, Bool.false_eq_true, if_false, List.forall_mem_cons]
    exact ⟨legalEvent_read _ (a := 2#5) rfl, legalEvent_read _ (a := 3#5) rfl, legalEvent_read _ (a := 4#5) rfl,
      legalEvent_read _ (a := 5#5) rfl, List.forall_mem_nil _⟩
  | true => exact List.forall_mem_singleton.2 (legalEvent_batchRead _)

theorem legalEvent_writePhase {batched : Bool} (s : State) :
    ∀ g ∈ writePhase batched, legalEvent s.params (g.event s) = true := by
  cases batched with
  | false =>
    simp only [writePhase, Bool.false_eq_true, if_false, List.forall_mem_cons]
    exact ⟨legalEvent_write _ (a := 2#5) rfl _, legalEvent_write _ (a := 3#5) rfl _, legalEvent_write _ (a := 4#5) rfl _,
      legalEvent_write _ (a := 5#5) rfl _, List.forall_mem_nil _⟩
  | true => exact List.forall_mem_singleton.2 (legalEvent_batchWrite _ _)

theorem legalEvent_powerStages {s : State} {l : PinLevel} {wait : State → Nat} {x : SleepState}
    (hpin : s.params.hasSleepPin = true) (hw : wait s = s.params.tWakeUs ∨ wait s = s.params.tSleepUs) :
    ∀ g ∈ powerStages l wait x, legalEvent s.params (g.event s) = true :=
  List.forall_mem_cons.2 ⟨hpin, List.forall_mem_singleton.2 (by simpa [legalEvent, hpin] using hw)⟩

/-- Every event of a request that VALIDATE accepts is legal. -/
theorem legalEvent_stages {p : Program} {s : State} (hp : programOf s.req.opc = some p)
    (hv : validate (latchHeader s.req) = none) : ∀ g ∈ p.stages s, legalEvent s.params (g.event s) = true := by
  have hr := addrReadable_of_valid hv
  have hw := addrWritable_of_valid hv
  generalize s.req.opc = o at hp hr hw
  cases o, p, hp using programOf_elim with
  | readReg => exact List.forall_mem_singleton.2 (legalEvent_read _ (hr rfl))
  | writeReg => exact List.forall_mem_singleton.2 (legalEvent_write _ (hw (.inl rfl)) _)
  | modifyReg =>
    have ha := hw (.inr rfl)
    have har : addrReadable s.req.addr = true := by
      simp only [addrWritable, addrReadable, decide_eq_true_eq] at ha ⊢
      exact ha.2
    exact List.forall_mem_cons.2 ⟨legalEvent_read _ har, List.forall_mem_singleton.2 (legalEvent_write _ ha _)⟩
  | readConfig => exact legalEvent_readPhase s
  | writeConfig => exact legalEvent_writePhase s
  | modifyConfig => exact List.forall_mem_append.2 ⟨legalEvent_readPhase s, legalEvent_writePhase s⟩
  | clearFault =>
    exact List.forall_mem_cons.2 ⟨legalEvent_read _ (a := 4#5) rfl,
      List.forall_mem_singleton.2 (legalEvent_write _ (a := 4#5) rfl _)⟩
  | awaken =>
    simp only [awakenProgram]
    split
    next => simp
    next h => exact legalEvent_powerStages (by simpa using (not_or.1 h).1) (.inl rfl)
  | sleep =>
    simp only [sleepProgram]
    split
    next => simp
    next h => exact legalEvent_powerStages (by simpa using (not_or.1 h).1) (.inr rfl)

/-! ### The events since a state -/

/-- Since s the block has issued events that all have the property E. -/
def IssuedSince (E : Event → Prop) (s t : State) : Prop := ∃ es, t.history = s.history ++ es ∧ ∀ e ∈ es, E e

theorem IssuedSince.refl (E : Event → Prop) (s : State) : IssuedSince E s s := ⟨[], by simp, by simp⟩

theorem IssuedSince.of_history {E : Event → Prop} {s t u : State} (h : IssuedSince E s t) (hu : u.history = t.history) :
    IssuedSince E s u := by
  rwa [IssuedSince, hu]

theorem IssuedSince.issue {E : Event → Prop} {s t : State} (h : IssuedSince E s t) {e : Event} (he : E e) :
    IssuedSince E s (issue e t) := by
  obtain ⟨es, hh, hes⟩ := h
  exact ⟨es ++ [e], by simp [hh], List.forall_mem_append.2 ⟨hes, List.forall_mem_singleton.2 he⟩⟩

/-- Since s the parameters have stayed and only legal events have been issued. -/
structure LegalSince (s t : State) : Prop where
  params : t.params = s.params
  issued : IssuedSince (fun e => legalEvent s.params e = true) s t

theorem LegalSince.of_eq {s t u : State} (h : LegalSince s t) (hp : u.params = t.params) (hh : u.history = t.history) :
    LegalSince s u :=
  ⟨hp.trans h.params, h.issued.of_history hh⟩

theorem carries_legalSince (s : State) :
    Carries (fun _ => LegalSince s) (fun _ _ => LegalSince s) (LegalSince s) where
  atEnd _ _ h := h.of_eq rfl rfl
  issues g gs t hb h := by
    obtain ⟨p, hp, hg⟩ := hb.mem_stages
    have hl := legalEvent_stages hp hb.valid g hg
    exact ⟨(issue_params _ _).trans h.params, h.issued.issue (by rwa [← h.params])⟩
  waits _ _ _ _ _ h hA := by
    obtain ⟨hpar, -, -, -, -, -, -, hh, -⟩ := take_keeps hA
    exact h.of_eq hpar hh
  fails _ _ _ _ _ _ _ h hA := by
    obtain ⟨hpar, -, -, -, hh, -⟩ := failed_keeps hA
    exact h.of_eq hpar hh
  goesOn g _ _ _ hw h hA := by
    obtain ⟨hpar, -, -, -, -, -, hh, -⟩ := answered_keeps hA
    have L := hw.laws g List.mem_cons_self
    exact h.of_eq ((L.params _).trans hpar) ((L.history _).trans hh)

theorem legalSince_start {r : Request} {p : Program} (hp : programOf (headerOpc r.header) = some p) (s : State) :
    LegalSince s (p.start (latch r s)) := by
  obtain ⟨hpar, -, hh, -⟩ := start_keeps hp (latch r s)
  exact ⟨hpar, (IssuedSince.refl _ s).of_history hh⟩

/-- Settles O46: each event is legal where it is issued, the header having passed VALIDATE. -/
theorem stepsIssueLegalEventsOnly : Obligations.StepsIssueLegalEventsOnly := by
  intro s t hi hx
  have here : LegalSince s s := ⟨rfl, .refl _ s⟩
  exact ((carries_legalSince s).step hi hx (fun _ => here) (fun _ _ => here.of_eq rfl rfl)
    (fun _ _ _ _ hp => legalSince_start hp s) fun _ _ _ _ => here).issued

end Sys2Proof.Machine
end

section
/-!
The result record (R26, R149, R332, R334, R336). While a request runs, `Running n s` counts the n exchanges that have been answered:
each adds the frames of one exchange to the record. Completion then writes the error and the aggregated fault over a record whose
slots are filled in order.
-/

namespace Sys2Proof.Machine

/-! ### The frames recorded (R26, R150) -/

/-- The slots are filled in order, up to the count of frames. -/
def SlotsFilled (r : Result) : Prop := ∀ j (h : j < 8), (r.st[j]).isSome = decide (j < r.nframes.toNat)

/-- Recording status bytes fills the next slots. -/
theorem slotsFilled_recordStatuses {cs : List Byte} {r : Result} (h : SlotsFilled r) (hl : r.nframes.toNat + cs.length ≤ 8) :
    SlotsFilled (recordStatuses cs r) ∧ (recordStatuses cs r).nframes.toNat = r.nframes.toNat + cs.length := by
  induction cs generalizing r with
  | nil => exact ⟨h, rfl⟩
  | cons c cs ih =>
    rw [List.length_cons] at hl
    have hn : (r.nframes + 1#4).toNat = r.nframes.toNat + 1 := by
      rw [BitVec.toNat_add]
      simp only [BitVec.toNat_ofNat]
      omega
    have h' : SlotsFilled { r with st := r.st.setIfInBounds r.nframes.toNat (some c), nframes := r.nframes + 1#4 } := by
      intro j hj
      simp only [hn, Vector.getElem_setIfInBounds]
      split
      next he => simp [← he]
      next he =>
        rw [h j hj, decide_eq_decide]
        omega
    obtain ⟨hs, hc⟩ := ih h' (by simp only [hn]; omega)
    refine ⟨hs, hc.trans ?_⟩
    rw [List.length_cons, hn]
    omega

/-- What the record says of the frames received. -/
structure FramesRecorded (r : Result) : Prop where
  bound : r.nframes.toNat ≤ 8
  slots : SlotsFilled r
  exchanges : r.nexch.toNat ≤ r.nframes.toNat

theorem framesRecorded_cleared : FramesRecorded Result.cleared :=
  ⟨by decide, by unfold SlotsFilled; decide, by decide⟩

/-- A record but for the values it returns. -/
def withoutValues (r : Result) : Result := { r with value := 0#8, wvalue := 0#8, cfg := 0#32, wcfg := 0#32 }

theorem FramesRecorded.of_eq {r r' : Result} (h : FramesRecorded r) (he : withoutValues r' = withoutValues r) :
    FramesRecorded r' := by
  have hf : r'.nframes = r.nframes := (congrArg Result.nframes he :)
  have hx : r'.nexch = r.nexch := (congrArg Result.nexch he :)
  have hs : r'.st = r.st := (congrArg Result.st he :)
  exact ⟨hf ▸ h.bound, by unfold SlotsFilled; rw [hf, hs]; exact h.slots, by rw [hf, hx]; exact h.exchanges⟩

/-- What follows an event writes values alone to the record. -/
theorem StageLaws.withoutValues_done {g : Stage} (hg : StageLaws g) (s : State) :
    withoutValues (g.done s).res = withoutValues s.res := by
  simp only [withoutValues, hg.err, hg.sub, hg.xidx, hg.nexch, hg.nframes, hg.st, hg.fault, hg.dsu]

theorem withoutValues_start {o : BitVec 4} {p : Program} (h : programOf o = some p) (s : State) :
    withoutValues (p.start s).res = withoutValues s.res := by
  cases o, p, h using programOf_elim <;> rfl

/-! ### The frames of a request's exchanges (R105, R261) -/

theorem framesPerExchange_pos (s : State) : 1 ≤ framesPerExchange s := by
  unfold framesPerExchange
  split <;> decide

theorem framesPerExchange_congr {s t : State} (hp : t.params = s.params) (hr : t.req = s.req) :
    framesPerExchange t = framesPerExchange s := by
  rw [framesPerExchange, framesPerExchange, hp, hr]

/-- No request has more than 8 frames. -/
theorem framesPerExchange_mul_stages_le {p : Program} {s : State} (hp : programOf s.req.opc = some p) :
    framesPerExchange s * (p.stages s).length ≤ 8 := by
  have hlen := stages_length hp s
  unfold framesPerExchange
  generalize s.req.opc = o at hp
  cases o, p, hp using programOf_elim with
  | readConfig => cases hb : s.params.batched <;> simp [readConfigProgram, readPhase, hb]
  | writeConfig => cases hb : s.params.batched <;> simp [writeConfigProgram, writePhase, hb]
  | modifyConfig => cases hb : s.params.batched <;> simp [modifyConfigProgram, readPhase, writePhase, hb]
  | _ => simpa using hlen

/-- Every event of the stage is an exchange of n bytes. -/
def Sends (n : Nat) (g : Stage) : Prop := ∀ s sent, g.event s = .exchange sent → sent.length = n

theorem sends_xread (addr : State → Nat) (keep : Byte → State → State) : Sends 2 (xread addr keep) := by
  rintro s _ ⟨⟩
  rfl

theorem sends_xwrite (addr : State → Nat) (v : State → Byte) : Sends 2 (xwrite addr v) := by
  rintro s _ ⟨⟩
  rfl

theorem sends_readPhase (batched : Bool) (keep : Cfg → State → State) :
    ∀ g ∈ readPhase batched keep, Sends (if batched then 8 else 2) g := by
  cases batched with
  | false => simp [readPhase, sends_xread]
  | true =>
    refine List.forall_mem_singleton.2 ?_
    rintro s _ ⟨⟩
    rfl

theorem sends_writePhase (batched : Bool) : ∀ g ∈ writePhase batched, Sends (if batched then 8 else 2) g := by
  cases batched with
  | false => simp [writePhase, sends_xwrite]
  | true =>
    refine List.forall_mem_singleton.2 ?_
    rintro s _ ⟨⟩
    rfl

theorem sends_powerStages (n : Nat) (l : PinLevel) (wait : State → Nat) (x : SleepState) :
    ∀ g ∈ powerStages l wait x, Sends n g :=
  List.forall_mem_cons.2 ⟨fun _ _ he => (nomatch he), List.forall_mem_singleton.2 fun _ _ he => (nomatch he)⟩

theorem bundle_bytes (batched : Bool) {o : BitVec 4} (ho : o = 0x4#4 ∨ o = 0x5#4 ∨ o = 0x6#4) :
    (if batched then 8 else 2) = 2 * if batched = true ∧ (o = 0x4#4 ∨ o = 0x5#4 ∨ o = 0x6#4) then 4 else 1 := by
  cases batched <;> simp [ho]

/-- An exchange of a request sends two bytes for each of its frames. -/
theorem sends_stages {p : Program} {s : State} (hp : programOf s.req.opc = some p) :
    ∀ g ∈ p.stages s, Sends (2 * framesPerExchange s) g := by
  unfold framesPerExchange
  generalize s.req.opc = o at hp
  cases o, p, hp using programOf_elim with
  | readReg => simp [readRegProgram, sends_xread]
  | writeReg => simp [writeRegProgram, sends_xwrite]
  | modifyReg => simp [modifyRegProgram, sends_xread, sends_xwrite]
  | clearFault => simp [clearFaultProgram, sends_xread, sends_xwrite]
  | readConfig => exact bundle_bytes _ (.inl rfl) ▸ sends_readPhase _ _
  | writeConfig => exact bundle_bytes _ (.inr (.inl rfl)) ▸ sends_writePhase _
  | modifyConfig =>
    exact bundle_bytes _ (.inr (.inr rfl)) ▸ List.forall_mem_append.2 ⟨sends_readPhase _ _, sends_writePhase _⟩
  | awaken =>
    simp only [awakenProgram]
    split
    · simp
    · exact sends_powerStages _ _ _ _
  | sleep =>
    simp only [sleepProgram]
    split
    · simp
    · exact sends_powerStages _ _ _ _

/-! ### The record while a request runs -/

/-- The record of a running request of which n exchanges have been answered. -/
structure Running (n : Nat) (s : State) : Prop where
  err : s.res.err = .ok
  sub : s.res.sub = none
  xidx : s.res.xidx = 0#4
  fault : s.res.fault = none
  dsu : s.res.dsu = false
  frames : FramesRecorded s.res
  register : s.req.opc ≠ 0x8#4 → s.req.opc ≠ 0x9#4 →
    s.res.nexch.toNat = n ∧ s.res.nframes.toNat = framesPerExchange s * n
  power : s.req.opc = 0x8#4 ∨ s.req.opc = 0x9#4 → s.res.nexch = 0#4 ∧ s.res.nframes = 0#4

theorem Running.of_eq {n : Nat} {s t : State} (h : Running n s) (hr : withoutValues t.res = withoutValues s.res)
    (hq : t.req = s.req) (hp : t.params = s.params) : Running n t where
  err := (congrArg Result.err hr :).trans h.err
  sub := (congrArg Result.sub hr :).trans h.sub
  xidx := (congrArg Result.xidx hr :).trans h.xidx
  fault := (congrArg Result.fault hr :).trans h.fault
  dsu := (congrArg Result.dsu hr :).trans h.dsu
  frames := h.frames.of_eq hr
  register := by
    have hx : t.res.nexch = s.res.nexch := (congrArg Result.nexch hr :)
    have hf : t.res.nframes = s.res.nframes := (congrArg Result.nframes hr :)
    rw [hq, framesPerExchange_congr hp hq, hx, hf]
    exact h.register
  power := by
    have hx : t.res.nexch = s.res.nexch := (congrArg Result.nexch hr :)
    have hf : t.res.nframes = s.res.nframes := (congrArg Result.nframes hr :)
    rw [hq, hx, hf]
    exact h.power

/-- Before its first event a request has a cleared record. -/
theorem running_start {r : Request} {p : Program} (hp : programOf (headerOpc r.header) = some p) (s : State) :
    Running 0 (p.start (latch r s)) := by
  have hl : Running 0 (latch r s) :=
    ⟨rfl, rfl, rfl, rfl, rfl, framesRecorded_cleared, fun _ _ => ⟨rfl, rfl⟩, fun _ => ⟨rfl, rfl⟩⟩
  exact hl.of_eq (withoutValues_start hp _) (by
    generalize headerOpc r.header = o at hp
    cases o, p, hp using programOf_elim <;> rfl) (start_keeps hp _).1

/-- Completion of a running request: the error, the aggregated fault and the unknown flag over the record. -/
theorem Running.resultInv_complete {n : Nat} {s : State} (h : Running n s) {e : Err} (he : e ≠ .misuse) (w : Bool)
    {x : BitVec 4} (hx : e ≠ .transport → x = 0#4) :
    ResultInv (complete e w { s with res := { s.res with xidx := x } }) where
  frameBound := h.frames.bound
  statusKnown := h.frames.slots
  exchangeBound := h.frames.exchanges
  subIffMisuse := by simp [h.sub, he]
  indexOnlyForTransport := hx
  unknownOnlyForTransport := by simp +contextual [h.dsu]
  idleFault _ := rfl
  busyClear hb := nomatch hb
  busyCount hb := nomatch hb
  busyPower hb := nomatch hb

/-- A running request that waits for the event of its k-th stage. -/
theorem Running.resultInv_waiting {g : Stage} {gs : List Stage} {s : State} (hw : Waiting g gs s)
    (h : Running (s.k.toNat - 1) s) : ResultInv s where
  frameBound := h.frames.bound
  statusKnown := h.frames.slots
  exchangeBound := h.frames.exchanges
  subIffMisuse := by simp [h.sub, h.err]
  indexOnlyForTransport _ := h.xidx
  unknownOnlyForTransport := by simp [h.dsu]
  idleFault hi := nomatch hi.symm.trans hw.busy
  busyClear _ := ⟨h.err, h.fault, h.dsu⟩
  busyCount _ sent ho := by
    obtain ⟨pre, hpl, hk⟩ := hw.place
    have he : g.event s = .exchange sent := Option.some.inj (hw.out.symm.trans ho)
    cases hpl with
    | register h8 h9 _ =>
      obtain ⟨hx, hf⟩ := h.register h8 h9
      exact ⟨by omega, hf⟩
    | pin => exact nomatch he
    | delay => exact nomatch he
  busyPower _ := h.power

/-- The invariant of a waiting block is that its request runs. -/
theorem ResultInv.running {g : Stage} {gs : List Stage} {s : State} (hr : ResultInv s) (hw : Waiting g gs s) :
    Running (s.k.toNat - 1) s := by
  obtain ⟨herr, hfault, hdsu⟩ := hr.busyClear hw.busy
  have hsub := hr.subIffMisuse
  refine ⟨herr, by simpa [herr] using hsub, hr.indexOnlyForTransport (by simp [herr]), hfault, hdsu,
    ⟨hr.frameBound, hr.statusKnown, hr.exchangeBound⟩, fun h8 h9 => ?_, hr.busyPower hw.busy⟩
  obtain ⟨pre, hpl, hk⟩ := hw.place
  cases hpl with
  | register _ _ hreg =>
    obtain ⟨sent, he⟩ := (hreg g List.mem_cons_self).event s
    obtain ⟨hx, hf⟩ := hr.busyCount hw.busy sent (hw.out.trans (congrArg some he))
    exact ⟨by omega, hf⟩
  | pin code | delay code =>
    generalize s.req.opc = o at code h8 h9
    cases code with
    | awaken => exact absurd rfl h8
    | sleep => exact absurd rfl h9

theorem PowerCode.opc {o : BitVec 4} {l : PinLevel} {wait : Params → Nat} {x : SleepState} (h : PowerCode o l wait x) :
    o = 0x8#4 ∨ o = 0x9#4 := by
  cases h with
  | awaken => exact .inl rfl
  | sleep => exact .inr rfl

/-- AWAKEN and SLEEP have no exchange to count. -/
theorem Running.of_power {n m : Nat} {s : State} (h : Running n s) (ho : s.req.opc = 0x8#4 ∨ s.req.opc = 0x9#4) :
    Running m s :=
  { h with register := fun h8 h9 => absurd ho (not_or.2 ⟨h8, h9⟩) }

/-- One exchange more is answered: its frames are recorded (R150). -/
theorem Running.recordExchange {n : Nat} {s : State} (h : Running n s) (h8 : s.req.opc ≠ 0x8#4) (h9 : s.req.opc ≠ 0x9#4)
    (hmax : framesPerExchange s * (n + 1) ≤ 8) (received : Bytes8) :
    Running (n + 1) (recordExchange (2 * framesPerExchange s) received s) := by
  obtain ⟨hx, hf⟩ := h.register h8 h9
  have hlen : (statusBytes (2 * framesPerExchange s) received).length = framesPerExchange s := by simp [statusBytes]
  have hle : n + 1 ≤ framesPerExchange s * (n + 1) := Nat.le_mul_of_pos_left _ (framesPerExchange_pos s)
  have hx' : (s.res.nexch + 1#4).toNat = n + 1 := by
    rw [BitVec.toNat_add]
    simp only [BitVec.toNat_ofNat]
    omega
  obtain ⟨hs, hn⟩ := slotsFilled_recordStatuses (cs := statusBytes (2 * framesPerExchange s) received)
    (r := { s.res with nexch := s.res.nexch + 1#4 }) h.frames.slots
    (by rw [hlen]; exact le_of_eq_of_le (congrArg (· + _) hf) hmax)
  have hn' : (recordStatuses (statusBytes (2 * framesPerExchange s) received)
      { s.res with nexch := s.res.nexch + 1#4 }).nframes.toNat = framesPerExchange s * (n + 1) := by
    rw [hn, hlen]
    exact congrArg (· + _) hf
  exact {
    err := by simp [h.err]
    sub := by simp [h.sub]
    xidx := by simp [h.xidx]
    fault := by simp [h.fault]
    dsu := by simp [h.dsu]
    frames := ⟨hn'.trans_le hmax, hs, by simpa [hx', hn'] using hle⟩
    register := fun _ _ => ⟨by simp [hx'], hn'⟩
    power := fun ho => absurd ho (not_or.2 ⟨h8, h9⟩) }

/-- An answered event counts one exchange more, if it is one. -/
theorem Running.answered {g : Stage} {gs : List Stage} {s t : State} (hw : Waiting g gs s) (h : Running (s.k.toNat - 1) s)
    (hA : awaitAnswer (g.event s) s = .answered t) : Running s.k.toNat t := by
  obtain ⟨p, hp, pre, hst, hk⟩ := hw.point
  obtain ⟨hpar, -, -, -, -, hreq, -⟩ := answered_keeps hA
  have hpower : ∀ l wait x, PowerCode s.req.opc l wait x → isExchange (g.event s) = false → Running s.k.toNat t := by
    intro l wait x code he
    obtain ⟨-, -, -, -, -, hres⟩ := await_power_keeps he s
    rw [hA] at hres
    exact (h.of_eq (congrArg withoutValues hres) hreq hpar).of_power (hreq ▸ code.opc)
  cases stagePlace hp hst with
  | pin code => exact hpower _ _ _ code rfl
  | delay code => exact hpower _ _ _ code rfl
  | register h8 h9 hreg =>
    obtain ⟨sent, he⟩ := (hreg g List.mem_cons_self).event s
    have hsent : sent.length = 2 * framesPerExchange (takeBusReply s) := by
      rw [framesPerExchange_congr (takeBusReply_params s) (takeBusReply_req s)]
      exact sends_stages hp g (by simp [hst]) s sent he
    have hstages : s.k.toNat ≤ (p.stages s).length := by simp [hst, hk]
    have hmax : framesPerExchange (takeBusReply s) * (s.k.toNat - 1 + 1) ≤ 8 := by
      rw [framesPerExchange_congr (takeBusReply_params s) (takeBusReply_req s), Nat.sub_add_cancel (by omega)]
      exact (Nat.mul_le_mul_left _ hstages).trans (framesPerExchange_mul_stages_le hp)
    have htaken : Running (s.k.toNat - 1) (takeBusReply s) :=
      h.of_eq (congrArg withoutValues (takeBusReply_res s)) (takeBusReply_req s) (takeBusReply_params s)
    rw [he] at hA
    obtain ⟨_, received, he', -, rfl⟩ | ⟨_, he', -⟩ | ⟨_, he', -⟩ := awaitAnswer_answered hA
    case inr.inl => cases he'
    case inr.inr => cases he'
    obtain rfl := Event.exchange.inj he'
    rw [hsent, ← Nat.sub_add_cancel (show 1 ≤ s.k.toNat by omega)]
    exact htaken.recordExchange (by simpa using h8) (by simpa using h9) hmax received

theorem carries_resultInv :
    Carries (fun _ s => Running s.k.toNat s) (fun _ _ s => Running (s.k.toNat - 1) s) ResultInv where
  atEnd s _ h := h.resultInv_complete (e := .ok) (by decide) false fun _ => h.xidx
  issues g gs s hb h := by
    obtain ⟨-, hk⟩ := between_issue hb
    rw [hk, Nat.add_sub_cancel]
    exact h.of_eq (by rw [issue_res]) (by simp) (by simp)
  waits g gs s t hw h hA := by
    obtain ⟨hpar, -, -, hk, -, hreq, hres, -⟩ := take_keeps hA
    exact Running.resultInv_waiting (waiting_waits hw hA) (hk ▸ h.of_eq (congrArg withoutValues hres) hreq hpar)
  fails g gs s e w t hw h hA := by
    rcases awaitAnswer_failed hA with ⟨sent, -, -, rfl, rfl, rfl⟩ | ⟨l, -, -, rfl, rfl, rfl⟩
    · have ht : Running (s.k.toNat - 1) (clearOutstanding (takeBusReply s)) := h.of_eq (by simp) (by simp) (by simp)
      exact ht.resultInv_complete (e := .transport) (by decide) _ (absurd rfl)
    · have ht : Running (s.k.toNat - 1) (recordFailedPin (takePinReply s)) := h.of_eq (by simp) (by simp) (by simp)
      exact ht.resultInv_complete (e := .pin) (by decide) false fun _ => ht.xidx
  goesOn g gs s t hw h hA := by
    have L := hw.laws g List.mem_cons_self
    obtain ⟨-, -, -, hk, -⟩ := answered_keeps hA
    rw [L.k, hk]
    exact (h.answered hw hA).of_eq (L.withoutValues_done t) (L.req t) (L.params t)

/-- A record that says no more than whether the request was refused. -/
theorem resultInv_of_cleared {s : State} (hs : s.phase = .idle) {e : Err} {sub : Option MisuseSub}
    (he : sub.isSome = decide (e = .misuse)) (hr : s.res = { Result.cleared with err := e, sub := sub }) : ResultInv s where
  frameBound := hr ▸ framesRecorded_cleared.bound
  statusKnown := by rw [hr]; exact framesRecorded_cleared.slots
  exchangeBound := hr ▸ framesRecorded_cleared.exchanges
  subIffMisuse := hr ▸ he
  indexOnlyForTransport _ := hr ▸ rfl
  unknownOnlyForTransport := by simp [hr, Result.cleared]
  idleFault _ := by simp [hr, Result.cleared, aggregate]
  busyClear hb := nomatch hs.symm.trans hb
  busyCount hb := nomatch hs.symm.trans hb
  busyPower hb := nomatch hs.symm.trans hb

/-- Settles O38: the record of a running request, and its completion. -/
theorem stepKeepsTheResultInvariant : Obligations.StepKeepsTheResultInvariant := by
  intro s t hi hinv hx
  refine carries_resultInv.step hi hx (fun _ => hinv) (fun sub hs => resultInv_of_cleared hs (by simp) rfl) ?_
    fun g gs _ hw => hinv.running hw
  intro r p _ _ hp
  rw [start_k hp]
  exact running_start hp s

/-! ### Reset (R52) -/

/-- Settles O34: the fields of the reset state. -/
theorem resetValues : Obligations.ResetValues := fun _ _ =>
  ⟨rfl, fun hp => if_pos hp, rfl, rfl, rfl, rfl, rfl, rfl⟩

theorem powerInv_resetOf (p : Params) (h : paramsOk p = true) : PowerInv (State.resetOf p h) := by
  cases hp : p.hasSleepPin <;> constructor <;> simp [State.resetOf, hp]

theorem invariants_resetOf (p : Params) (h : paramsOk p = true) : SequencerInv (State.resetOf p h)
    ∧ PowerInv (State.resetOf p h) ∧ HistoryInv (State.resetOf p h) ∧ ResultInv (State.resetOf p h) :=
  ⟨rest_inv (.inl ⟨rfl, rfl⟩), powerInv_resetOf p h, ⟨(nomatch ·)⟩, resultInv_of_cleared (e := .ok) (sub := none) rfl rfl rfl⟩

/-- Settles O35: IDLE with nothing outstanding, S by the pin, and a cleared record. -/
theorem resetMeetsTheInvariants : Obligations.ResetMeetsTheInvariants :=
  ⟨invariants_resetOf, invariants_resetOf _ _⟩

end Sys2Proof.Machine
end

section
/-!
The frame of a request, and which result fields it writes (R20, R24, R26, R232, R262, R276, R300, R308). A field that no operation of
the sequencer writes is changed by a request's own stages alone.
-/

namespace Sys2Proof.Machine

/-! ### Register requests and the sleep FSM (R232, R300, R308) -/

/-- Since s: S, the level driven, the answers of pin and delay service as they were, and exchanges alone issued. -/
structure RegisterSince (s t : State) : Prop where
  sleep : t.sleep = s.sleep
  sleepLatch : t.sleepLatch = s.sleepLatch
  sleepPin : t.sleepPin = s.sleepPin
  delay : t.delay = s.delay
  issued : IssuedSince (fun e => isExchange e = true) s t

theorem RegisterSince.refl (s : State) : RegisterSince s s := ⟨rfl, rfl, rfl, rfl, .refl _ s⟩

theorem RegisterSince.of_eq {s t u : State} (h : RegisterSince s t) (hs : u.sleep = t.sleep)
    (hl : u.sleepLatch = t.sleepLatch) (hp : u.sleepPin = t.sleepPin) (hd : u.delay = t.delay)
    (hh : u.history = t.history) : RegisterSince s u :=
  ⟨hs.trans h.sleep, hl.trans h.sleepLatch, hp.trans h.sleepPin, hd.trans h.delay, h.issued.of_history hh⟩

/-- The answer to an exchange keeps what has been so since s. -/
theorem RegisterSince.await {s t : State} (h : RegisterSince s t) (sent : List Byte)
    (hh : (awaitAnswer (.exchange sent) t).state.history = t.history) :
    RegisterSince s (awaitAnswer (.exchange sent) t).state := by
  obtain ⟨hs, hl, hp, hd⟩ := await_exchange_keeps sent t
  exact h.of_eq hs hl hp hd hh

theorem await_history (e : Event) (s : State) : (awaitAnswer e s).state.history = s.history := by
  cases hA : awaitAnswer e s with
  | waiting t =>
    obtain ⟨-, -, -, -, -, -, -, hh, -⟩ := take_keeps hA
    exact hh
  | failed x w t =>
    obtain ⟨-, -, -, -, hh, -⟩ := failed_keeps hA
    exact hh
  | answered t =>
    obtain ⟨-, -, -, -, -, -, hh, -⟩ := answered_keeps hA
    exact hh

/-- The stages left are register stages, and nothing else has happened since s. -/
structure RegisterBetween (s : State) (gs : List Stage) (t : State) : Prop where
  since : RegisterSince s t
  stages : ∀ g ∈ gs, RegisterStage g

theorem carries_registerSince (s : State) :
    Carries (RegisterBetween s) (fun g gs => RegisterBetween s (g :: gs)) (RegisterSince s) where
  atEnd _ _ h := h.since.of_eq rfl rfl rfl rfl rfl
  issues g gs t _ h := by
    obtain ⟨hs, hl, hp, hd, hi⟩ := h.since
    obtain ⟨sent, he⟩ := (h.stages g List.mem_cons_self).event t
    exact ⟨⟨by simpa, by simpa, by simpa, by simpa, hi.issue (by rw [he]; rfl)⟩, h.stages⟩
  waits g gs t u _ h hA := by
    obtain ⟨sent, he⟩ := (h.stages g List.mem_cons_self).event t
    rw [he] at hA
    simpa [hA] using h.since.await sent (await_history _ t)
  fails g gs t x w u _ h hA := by
    obtain ⟨sent, he⟩ := (h.stages g List.mem_cons_self).event t
    rw [he] at hA
    have hu : RegisterSince s u := by simpa [hA] using h.since.await sent (await_history _ t)
    exact hu.of_eq rfl rfl rfl rfl rfl
  goesOn g gs t u hw h hA := by
    have G := h.stages g List.mem_cons_self
    have L := hw.laws g List.mem_cons_self
    obtain ⟨sent, he⟩ := G.event t
    rw [he] at hA
    have hu : RegisterSince s u := by simpa [hA] using h.since.await sent (await_history _ t)
    exact ⟨hu.of_eq (G.sleep u) (G.sleepLatch u) (L.sleepPin u) (L.delay u) (L.history u),
      fun g' hg => h.stages g' (List.mem_cons_of_mem _ hg)⟩

theorem requestOpc_of_not_power {i : Instr} (hi : IsRequest i) (hn : ¬ IsPowerRequest i) :
    requestOpc i ≠ 0x8#4 ∧ requestOpc i ≠ 0x9#4 := by
  cases i with
  | awaken => exact absurd (.inl rfl) hn
  | sleep => exact absurd (.inr rfl) hn
  | _ => simp [requestOpc]

/-- A register request, from IDLE. -/
theorem exec_registerSince {i : Instr} {s t : State} (hi : IsRequest i) (hn : ¬ IsPowerRequest i) (hs : s.phase = .idle)
    (hx : exec i s = .next t) : RegisterSince s t := by
  obtain ⟨h8, h9⟩ := requestOpc_of_not_power hi hn
  refine (carries_registerSince s).exec hi hs hx (fun _ => (RegisterSince.refl s).of_eq rfl rfl rfl rfl rfl) ?_
  intro r p _ ho hp
  obtain ⟨-, hsl, hh, -⟩ := start_keeps hp (latch r s)
  obtain ⟨-, hpin, hd⟩ := start_answers hp (latch r s)
  exact ⟨(RegisterSince.refl s).of_eq hsl (start_sleepLatch hp _) hpin hd hh,
    stages_registerStage hp (ho ▸ h8) (ho ▸ h9) _⟩

/-- A request by `exec` does nothing while the block is BUSY (R220). -/
theorem exec_busy {i : Instr} (hi : IsRequest i) {s : State} (hs : s.phase = .busy) : exec i s = .next s := by
  obtain ⟨r, p, ha⟩ := exists_acceptedAs hi s
  rw [ha.exec_eq, acceptRequest_busy r p hs]

/-- Settles O42: the stages of a register request are exchanges that leave the sleep FSM alone. -/
theorem onlyPowerRequestsTouchThePowerState : Obligations.OnlyPowerRequestsTouchThePowerState := by
  constructor
  · intro i s t hi hn hx
    have h : RegisterSince s t := by
      cases hs : s.phase with
      | idle => exact exec_registerSince hi hn hs hx
      | busy =>
        obtain rfl : s = t := by simpa [exec_busy hi hs] using hx
        exact .refl s
    exact ⟨h.sleep, h.sleepLatch, h.issued⟩
  · intro s t hi hs h8 h9 hx
    have h : RegisterSince s t := (carries_registerSince s).busyStep hi hs hx fun g gs hw => by
      obtain ⟨pre, hpl, -⟩ := hw.place
      refine ⟨.refl s, ?_⟩
      cases hpl with
      | register _ _ hreg => exact hreg
      | pin code | delay code => exact absurd code.opc (not_or.2 ⟨h8, h9⟩)
    exact ⟨h.sleep, h.sleepLatch, h.issued⟩

/-! ### AWAKEN and SLEEP (R303, R304) -/

/-- A stage that issues no exchange, and leaves buffers, mark, transport and record alone. -/
structure PowerStage (g : Stage) : Prop where
  event : ∀ s, isExchange (g.event s) = false
  tx : ∀ s, (g.done s).tx = s.tx
  rx : ∀ s, (g.done s).rx = s.rx
  res : ∀ s, (g.done s).res = s.res

theorem powerStages_powerStage (l : PinLevel) (wait : State → Nat) (x : SleepState) :
    ∀ g ∈ powerStages l wait x, PowerStage g :=
  List.forall_mem_cons.2 ⟨⟨fun _ => rfl, fun _ => rfl, fun _ => rfl, fun _ => rfl⟩,
    List.forall_mem_singleton.2 ⟨fun _ => rfl, fun _ => rfl, fun _ => rfl, fun _ => rfl⟩⟩

/-- Since s: the buffers, the mark and the transport's answers as they were. -/
structure PowerSince (s t : State) : Prop where
  tx : t.tx = s.tx
  rx : t.rx = s.rx
  mark : t.asleepAccess = s.asleepAccess
  transport : t.transport = s.transport

/-- The stages left are power stages, nothing else has happened since s, and the record is cleared. -/
structure PowerBetween (s : State) (gs : List Stage) (t : State) : Prop where
  since : PowerSince s t
  cleared : t.res = Result.cleared
  stages : ∀ g ∈ gs, PowerStage g

/-- What a power request ends in. -/
structure PowerDone (s t : State) : Prop where
  since : PowerSince s t
  cleared : t.res = { Result.cleared with err := t.res.err }

/-- The answer to a pin set or a delay keeps what has been so since s. -/
theorem PowerBetween.await {s t : State} {gs : List Stage} (h : PowerBetween s gs t) {e : Event} (he : isExchange e = false) :
    PowerBetween s gs (awaitAnswer e t).state := by
  obtain ⟨htx, hrx, hm, htr, -, hres⟩ := await_power_keeps he t
  obtain ⟨⟨h1, h2, h3, h4⟩, h5, h6⟩ := h
  exact ⟨⟨htx.trans h1, hrx.trans h2, hm.trans h3, htr.trans h4⟩, hres.trans h5, h6⟩

/-- Completion without a write frame leaves the cleared record but for the error. -/
theorem PowerBetween.complete {s t : State} {gs : List Stage} (h : PowerBetween s gs t) (e : Err) :
    PowerDone s (complete e false t) := by
  obtain ⟨⟨h1, h2, h3, h4⟩, h5, -⟩ := h
  exact ⟨⟨h1, h2, h3, h4⟩, by simp [h5, Result.cleared, aggregate]⟩

theorem carries_powerDone (s : State) :
    Carries (PowerBetween s) (fun g gs => PowerBetween s (g :: gs)) (PowerDone s) where
  atEnd _ _ h := h.complete .ok
  issues g gs t _ h := by
    have he := (h.stages g List.mem_cons_self).event t
    obtain ⟨⟨h1, h2, h3, h4⟩, h5, h6⟩ := h
    cases hg : g.event t with
    | exchange sent => simp [hg, isExchange] at he
    | pinSet l => exact ⟨⟨by simpa, by simpa, by simpa, by simpa⟩, by simpa, h6⟩
    | delay us => exact ⟨⟨by simpa, by simpa, by simpa, by simpa⟩, by simpa, h6⟩
  waits g gs t u _ h hA := by
    have hu : PowerBetween s (g :: gs) u := by simpa [hA] using h.await ((h.stages g List.mem_cons_self).event t)
    exact ⟨hu.since, by simp [hu.cleared, Result.cleared]⟩
  fails g gs t x w u _ h hA := by
    have he := (h.stages g List.mem_cons_self).event t
    have hu : PowerBetween s (g :: gs) u := by simpa [hA] using h.await he
    rcases awaitAnswer_failed hA with ⟨sent, hg, -⟩ | ⟨l, -, -, -, rfl, -⟩
    · simp [hg, isExchange] at he
    · exact hu.complete x
  goesOn g gs t u hw h hA := by
    have G := h.stages g List.mem_cons_self
    have L := hw.laws g List.mem_cons_self
    have hu : PowerBetween s (g :: gs) u := by simpa [hA] using h.await (G.event t)
    obtain ⟨⟨h1, h2, h3, h4⟩, h5, h6⟩ := hu
    exact ⟨⟨(G.tx u).trans h1, (G.rx u).trans h2, (L.mark u).trans h3, (L.transport u).trans h4⟩, (G.res u).trans h5,
      fun g' hg => h6 g' (List.mem_cons_of_mem _ hg)⟩

/-- AWAKEN and SLEEP, from IDLE: their headers pass VALIDATE. -/
theorem exec_powerDone {i : Instr} {s t : State} (hi : IsPowerRequest i) (hs : s.phase = .idle) (hx : exec i s = .next t) :
    PowerDone s t := by
  have run : ∀ {h : Header} {o : BitVec 4} {p : Program}, validate h = none → headerOpc h = o → programOf o = some p →
      (∀ r, p.start (latch r s) = latch r s) → (∀ u, ∀ g ∈ p.stages u, PowerStage g) →
      PowerDone s (acceptRequest (recordBare h (offered s)) p s) := by
    rintro h _ p hv rfl hp hstart hst
    rw [acceptRequest_valid (r := recordBare h (offered s)) p hs hv]
    have hb : PowerBetween s (p.stages (latch (recordBare h (offered s)) s)) (p.start (latch (recordBare h (offered s)) s)) := by
      rw [hstart]
      exact ⟨⟨rfl, rfl, rfl, rfl⟩, rfl, hst _⟩
    exact (carries_powerDone s).accepted (r := recordBare h (offered s)) hv hp hb
  rcases hi with rfl | rfl
  · obtain rfl : acceptRequest (recordBare 0x8000#16 (offered s)) awakenProgram s = t := Host.Outcome.next.inj hx
    refine run validate_awaken (by decide : headerOpc 0x8000#16 = 0x8#4) rfl (fun _ => rfl) fun u => ?_
    simp only [awakenProgram]
    split
    · simp
    · exact powerStages_powerStage _ _ _
  · obtain rfl : acceptRequest (recordBare 0x9000#16 (offered s)) sleepProgram s = t := Host.Outcome.next.inj hx
    refine run validate_sleep (by decide : headerOpc 0x9000#16 = 0x9#4) rfl (fun _ => rfl) fun u => ?_
    simp only [sleepProgram]
    split
    · simp
    · exact powerStages_powerStage _ _ _

/-! ### What the sequencer leaves to the stages -/

theorem untouched_value : Untouched fun s => s.res.value := by constructor <;> simp
theorem untouched_wvalue : Untouched fun s => s.res.wvalue := by constructor <;> simp
theorem untouched_cfg : Untouched fun s => s.res.cfg := by constructor <;> simp
theorem untouched_wcfg : Untouched fun s => s.res.wcfg := by constructor <;> simp

/-- Such a view of a request's end is that of its refusal or of its start, if its stages leave it alone. -/
theorem exec_untouched {α : Type} {view : State → α} (u : Untouched view) {i : Instr} {s t : State} {c : α}
    (hi : IsRequest i) (hs : s.phase = .idle) (hx : exec i s = .next t) (refuses : ∀ sub, view (refuse sub s) = c)
    (starts : ∀ r p, programOf (requestOpc i) = some p → view (p.start (latch r s)) = c)
    (stages : ∀ p, programOf (requestOpc i) = some p → ∀ s, ∀ g ∈ p.stages s, ∀ t, view (g.done t) = view t) :
    view t = c := by
  obtain ⟨r, p, ha⟩ := exists_acceptedAs hi s
  obtain rfl : acceptRequest r p s = t := by simpa [ha.exec_eq] using hx
  cases hv : validate r.header with
  | some sub => rw [acceptRequest_refused p hs hv, refuses]
  | none => rw [acceptRequest_valid p hs hv, u.runStages (stages p (ha.program hv) _), starts r p (ha.program hv)]

/-- What follows an event of a read phase does to a view that keeping a byte or the configuration leaves alone. -/
theorem view_readPhase {α : Type} {view : State → α} (batched : Bool) {keep : Cfg → State → State}
    (hb : ∀ i v s, view (setBundle i v s) = view s) (hk : ∀ c s, view (keep c s) = view s) :
    ∀ g ∈ readPhase batched keep, ∀ s, view (g.done s) = view s := by
  cases batched with
  | false =>
    simp only [readPhase, Bool.false_eq_true, if_false, List.forall_mem_cons]
    exact ⟨fun _ => hb _ _ _, fun _ => hb _ _ _, fun _ => hb _ _ _, fun _ => (hk _ _).trans (hb _ _ _),
      List.forall_mem_nil _⟩
  | true => exact List.forall_mem_singleton.2 fun _ => hk _ _

theorem view_writePhase {α : Type} {view : State → α} (batched : Bool) :
    ∀ g ∈ writePhase batched, ∀ s, view (g.done s) = view s := by
  cases batched with
  | false =>
    simp only [writePhase, Bool.false_eq_true, if_false, List.forall_mem_cons]
    exact ⟨fun _ => rfl, fun _ => rfl, fun _ => rfl, fun _ => rfl, List.forall_mem_nil _⟩
  | true => exact List.forall_mem_singleton.2 fun _ => rfl

/-- The stages of a request write nothing but S, the level driven, the bundle and the values their rules name. -/
theorem view_stages {α : Type} {view : State → α} {o : BitVec 4} {p : Program} (h : programOf o = some p)
    (hsleep : ∀ x s, view (setSleep x s) = view s) (hlatch : ∀ l s, view (setSleepLatch l s) = view s)
    (hvalue : o = 0x1#4 ∨ o = 0x3#4 ∨ o = 0x7#4 → ∀ v s, view (setValue v s) = view s)
    (hwvalue : o = 0x3#4 ∨ o = 0x7#4 → ∀ v s, view (setWvalue v s) = view s)
    (hcfg : o = 0x4#4 ∨ o = 0x6#4 → (∀ i v s, view (setBundle i v s) = view s) ∧ ∀ c s, view (setCfg c s) = view s)
    (hwcfg : o = 0x6#4 → ∀ c s, view (setWcfg c s) = view s) (s : State) :
    ∀ g ∈ p.stages s, ∀ t, view (g.done t) = view t := by
  cases o, p, h using programOf_elim with
  | readReg => exact List.forall_mem_singleton.2 fun _ => hvalue (by simp) _ _
  | writeReg => exact List.forall_mem_singleton.2 fun _ => rfl
  | modifyReg | clearFault =>
    exact List.forall_mem_cons.2 ⟨fun _ => (hwvalue (by simp) _ _).trans (hvalue (by simp) _ _),
      List.forall_mem_singleton.2 fun _ => rfl⟩
  | readConfig => exact view_readPhase _ (hcfg (by simp)).1 (hcfg (by simp)).2
  | writeConfig => exact view_writePhase _
  | modifyConfig =>
    exact List.forall_mem_append.2 ⟨view_readPhase _ (hcfg (by simp)).1 fun _ _ =>
      (hwcfg rfl _ _).trans ((hcfg (by simp)).2 _ _), view_writePhase _⟩
  | awaken =>
    simp only [awakenProgram]
    split
    · simp
    · exact List.forall_mem_cons.2 ⟨hlatch _, List.forall_mem_singleton.2 (hsleep _)⟩
  | sleep =>
    simp only [sleepProgram]
    split
    · simp
    · exact List.forall_mem_cons.2 ⟨hlatch _, List.forall_mem_singleton.2 (hsleep _)⟩

/-- What a request does before its first event writes no field but `res.wvalue` and `res.wcfg`. -/
theorem view_start {α : Type} {view : State → α} {o : BitVec 4} {p : Program} (h : programOf o = some p)
    (hwvalue : o = 0x2#4 → ∀ v s, view (setWvalue v s) = view s) (hwcfg : o = 0x5#4 → ∀ c s, view (setWcfg c s) = view s)
    (s : State) : view (p.start s) = view s := by
  cases o, p, h using programOf_elim with
  | writeReg => exact hwvalue rfl _ _
  | writeConfig => exact hwcfg rfl _ _
  | _ => rfl

/-! ### Requests by the fields they write (R26, R262, R276) -/

theorem requestOpc_readsConfig {i : Instr} (ho : requestOpc i = 0x4#4 ∨ requestOpc i = 0x6#4) : ReadsConfig i := by
  cases i with
  | readConfig | modifyConfig => trivial
  | _ => simp [requestOpc] at ho

theorem requestOpc_writesConfig {i : Instr} (ho : requestOpc i = 0x5#4 ∨ requestOpc i = 0x6#4) : WritesConfig i := by
  cases i with
  | writeConfig | writeDefaults | modifyConfig => trivial
  | _ => simp [requestOpc] at ho

theorem exists_spellsModifyReg {i : Instr} (ho : requestOpc i = 0x3#4) : ∃ a f, SpellsModifyReg a f i := by
  cases i with
  | modifyReg a f => exact ⟨a, f, .inl rfl⟩
  | modifyIc1 m d => exact ⟨_, _, .inr (.inl ⟨m, d, rfl, .inl ⟨rfl, rfl⟩⟩)⟩
  | modifyIc2 m d => exact ⟨_, _, .inr (.inl ⟨m, d, rfl, .inr (.inl ⟨rfl, rfl⟩)⟩)⟩
  | modifyIc3 m d => exact ⟨_, _, .inr (.inl ⟨m, d, rfl, .inr (.inr (.inl ⟨rfl, rfl⟩))⟩)⟩
  | modifyIc4 m d => exact ⟨_, _, .inr (.inl ⟨m, d, rfl, .inr (.inr (.inr ⟨rfl, rfl⟩))⟩)⟩
  | setBits a m => exact ⟨a, _, .inr (.inr (.inl ⟨m, rfl, rfl⟩))⟩
  | clrBits a m => exact ⟨a, _, .inr (.inr (.inr ⟨m, rfl, rfl⟩))⟩
  | _ => simp [requestOpc] at ho

theorem requestOpc_readsValue {i : Instr} (ho : requestOpc i = 0x1#4 ∨ requestOpc i = 0x3#4 ∨ requestOpc i = 0x7#4) :
    ReadsValue i := by
  cases i with
  | readReg a => exact .inl ⟨a, .inl rfl⟩
  | readFault => exact .inl ⟨_, .inr (.inl ⟨rfl, rfl⟩)⟩
  | readDiag => exact .inl ⟨_, .inr (.inr (.inl ⟨rfl, rfl⟩))⟩
  | readIc1 => exact .inl ⟨_, .inr (.inr (.inr (.inl ⟨rfl, rfl⟩)))⟩
  | readIc2 => exact .inl ⟨_, .inr (.inr (.inr (.inr (.inl ⟨rfl, rfl⟩))))⟩
  | readIc3 => exact .inl ⟨_, .inr (.inr (.inr (.inr (.inr (.inl ⟨rfl, rfl⟩)))))⟩
  | readIc4 => exact .inl ⟨_, .inr (.inr (.inr (.inr (.inr (.inr ⟨rfl, rfl⟩)))))⟩
  | modifyReg | modifyIc1 | modifyIc2 | modifyIc3 | modifyIc4 | setBits | clrBits =>
    exact .inr (.inl (exists_spellsModifyReg rfl))
  | clearFault => exact .inr (.inr rfl)
  | _ => simp [requestOpc] at ho

theorem requestOpc_writesValue {i : Instr} (ho : requestOpc i = 0x2#4 ∨ requestOpc i = 0x3#4 ∨ requestOpc i = 0x7#4) :
    WritesValue i := by
  cases i with
  | writeReg a d => exact .inl ⟨a, d, .inl rfl⟩
  | writeIc1 d => exact .inl ⟨_, d, .inr (.inl ⟨rfl, rfl⟩)⟩
  | writeIc2 d => exact .inl ⟨_, d, .inr (.inr (.inl ⟨rfl, rfl⟩))⟩
  | writeIc3 d => exact .inl ⟨_, d, .inr (.inr (.inr (.inl ⟨rfl, rfl⟩)))⟩
  | writeIc4 d => exact .inl ⟨_, d, .inr (.inr (.inr (.inr ⟨rfl, rfl⟩)))⟩
  | modifyReg | modifyIc1 | modifyIc2 | modifyIc3 | modifyIc4 | setBits | clrBits =>
    exact .inr (.inl (exists_spellsModifyReg rfl))
  | clearFault => exact .inr (.inr rfl)
  | _ => simp [requestOpc] at ho

/-- Settles O43: field by field, what no operation of the sequencer and no stage of the request writes. -/
theorem requestsLeaveTheRestAlone : Obligations.RequestsLeaveTheRestAlone := by
  intro i s t hi hs hx
  refine ⟨?params, ?disable, ?fault, ?offers, fun hn => ?register, fun hp => ?power, fun hn => ?bundle⟩
  case register =>
    have h := exec_registerSince hi hn hs hx
    exact ⟨h.sleep, h.sleepLatch, h.sleepPin, h.delay⟩
  case power =>
    obtain ⟨⟨htx, hrx, hm, ht⟩, -⟩ := exec_powerDone hp hs hx
    exact ⟨htx, hrx, hm, ht⟩
  case params =>
    exact exec_untouched untouched_params hi hs hx (fun _ => rfl) (fun _ _ hp => (start_keeps hp _).1)
      fun _ hp s g hg => (stageLaws hp s g hg).params
  case disable =>
    exact exec_untouched untouched_disableLine hi hs hx (fun _ => rfl) (fun _ _ hp => (start_lines hp _).1)
      fun _ hp s g hg t => ((stageLaws hp s g hg).lines t).1
  case fault =>
    exact exec_untouched untouched_faultLine hi hs hx (fun _ => rfl) (fun _ _ hp => (start_lines hp _).2)
      fun _ hp s g hg t => ((stageLaws hp s g hg).lines t).2
  case offers =>
    exact exec_untouched untouched_offers hi hs hx (fun _ => rfl)
      (fun r _ hp => view_start (view := State.offers) hp (fun _ _ _ => rfl) (fun _ _ _ => rfl) (latch r s))
      fun _ hp s g hg => (stageLaws hp s g hg).offers
  case bundle =>
    exact exec_untouched untouched_bundle hi hs hx (fun _ => rfl)
      (fun r _ hp => view_start (view := State.bundle) hp (fun _ _ _ => rfl) (fun _ _ _ => rfl) (latch r s))
      fun _ hp => view_stages hp (fun _ _ => rfl) (fun _ _ => rfl) (fun _ _ _ => rfl) (fun _ _ _ => rfl)
        (fun ho => absurd (requestOpc_readsConfig ho) hn) fun _ _ _ => rfl

/-- Settles O44: a value field is written by the stages of the operation codes whose rules name it, and by no others. -/
theorem requestsWriteOnlyTheirResultFields : Obligations.RequestsWriteOnlyTheirResultFields := by
  intro i s t hi hs hx
  refine ⟨fun hn => ?value, fun hn => ?wvalue, fun hn => ?cfg, fun hn => ?wcfg, fun hp => (exec_powerDone hp hs hx).cleared⟩
  case value =>
    exact exec_untouched untouched_value hi hs hx (fun _ => rfl)
      (fun r _ hp => view_start (view := fun s => s.res.value) hp (fun _ _ _ => rfl) (fun _ _ _ => rfl) (latch r s))
      fun _ hp => view_stages (view := fun s => s.res.value) hp
        (fun _ _ => rfl) (fun _ _ => rfl) (fun ho => absurd (requestOpc_readsValue ho) hn)
        (fun _ _ _ => rfl) (fun _ => ⟨fun _ _ _ => rfl, fun _ _ => rfl⟩) fun _ _ _ => rfl
  case wvalue =>
    have h37 := fun ho => hn (requestOpc_writesValue (.inr ho))
    exact exec_untouched untouched_wvalue hi hs hx (fun _ => rfl)
      (fun r _ hp => view_start (view := fun s => s.res.wvalue) hp
        (fun ho => absurd (requestOpc_writesValue (.inl ho)) hn) (fun _ _ _ => rfl) (latch r s))
      fun _ hp => view_stages (view := fun s => s.res.wvalue) hp
        (fun _ _ => rfl) (fun _ _ => rfl) (fun _ _ _ => rfl) (fun ho => absurd ho h37)
        (fun _ => ⟨fun _ _ _ => rfl, fun _ _ => rfl⟩) fun _ _ _ => rfl
  case cfg =>
    exact exec_untouched untouched_cfg hi hs hx (fun _ => rfl)
      (fun r _ hp => view_start (view := fun s => s.res.cfg) hp (fun _ _ _ => rfl) (fun _ _ _ => rfl) (latch r s))
      fun _ hp => view_stages (view := fun s => s.res.cfg) hp
        (fun _ _ => rfl) (fun _ _ => rfl) (fun _ _ _ => rfl) (fun _ _ _ => rfl)
        (fun ho => absurd (requestOpc_readsConfig ho) hn) fun _ _ _ => rfl
  case wcfg =>
    exact exec_untouched untouched_wcfg hi hs hx (fun _ => rfl)
      (fun r _ hp => view_start (view := fun s => s.res.wcfg) hp (fun _ _ _ => rfl)
        (fun ho => absurd (requestOpc_writesConfig (.inl ho)) hn) (latch r s))
      fun _ hp => view_stages (view := fun s => s.res.wcfg) hp
        (fun _ _ => rfl) (fun _ _ => rfl) (fun _ _ _ => rfl) (fun _ _ _ => rfl)
        (fun _ => ⟨fun _ _ _ => rfl, fun _ _ => rfl⟩) fun ho => absurd (requestOpc_writesConfig (.inr ho)) hn

end Sys2Proof.Machine
end

section
/-!
Precise errors (R335, R338). Counted from a state with the event `before` outstanding, the events at issue are that one and those
issued since. While a request runs, each exchange among them that has been answered is counted in `res.nexch`; the one that fails is
the last.
-/

namespace Sys2Proof.Machine

/-- What the account starts from: the history, the event outstanding, the count of exchanges and the level driven. -/
structure Origin where
  history    : List Event
  before     : Option Event
  nexch      : Nat
  sleepLatch : Option PinLevel

/-- At s the events es are those at issue. -/
def AtIssue (o : Origin) (es : List Event) (s : State) : Prop :=
  ∃ issued, s.history = o.history ++ issued ∧ es = o.before.toList ++ issued

/-- The events at issue are those by which the history has grown, after the one outstanding before. -/
theorem AtIssue.eq {o : Origin} {es issued : List Event} {s : State} (h : AtIssue o es s)
    (hh : s.history = o.history ++ issued) : es = o.before.toList ++ issued := by
  obtain ⟨issued', hh', rfl⟩ := h
  rw [List.append_cancel_left (hh'.symm.trans hh)]

theorem AtIssue.of_history {o : Origin} {es : List Event} {s t : State} (h : AtIssue o es s)
    (ht : t.history = s.history) : AtIssue o es t := by
  rwa [AtIssue, ht]

theorem AtIssue.issue {o : Origin} {es : List Event} {s : State} (h : AtIssue o es s) (e : Event) :
    AtIssue o (es ++ [e]) (issue e s) := by
  obtain ⟨issued, hh, rfl⟩ := h
  exact ⟨issued ++ [e], by simp [hh], by simp⟩

/-- The events es are at issue, and no other than a running request has them. -/
structure Accounted (o : Origin) (es : List Event) (s : State) : Prop where
  atIssue : AtIssue o es s
  length_le : es.length ≤ s.k.toNat
  register : s.req.opc ≠ 0x8#4 → s.req.opc ≠ 0x9#4 → ∀ e ∈ es, isExchange e = true

/-- Between two events: the exchanges at issue are answered and counted. -/
structure PreciseBetween (o : Origin) (es : List Event) (s : State) : Prop where
  accounted : Accounted o es s
  counted : s.res.nexch.toNat = o.nexch + es.countP isExchange
  nexch_le : s.res.nexch.toNat ≤ s.k.toNat
  latch : s.k.toNat = 0 → s.sleepLatch = o.sleepLatch

/-- While the event e is outstanding: it is the last at issue, and the exchanges before it are answered and counted. -/
structure PreciseWaiting (o : Origin) (answered : List Event) (e : Event) (s : State) : Prop where
  accounted : Accounted o (answered ++ [e]) s
  counted : s.res.nexch.toNat = o.nexch + answered.countP isExchange
  nexch_lt : s.res.nexch.toNat < s.k.toNat
  latch : s.k.toNat ≤ 1 → s.sleepLatch = o.sleepLatch

/-- A request that ends with es at issue ends precisely. -/
structure PreciseEnd (o : Origin) (es : List Event) (t : State) : Prop where
  atIssue : AtIssue o es t
  transport : t.res.err = .transport → ∃ answered sent, es = answered ++ [.exchange sent]
    ∧ t.res.nexch.toNat = o.nexch + answered.length ∧ t.res.xidx = t.res.nexch
  pin : t.res.err = .pin → ∃ l, es = [.pinSet l] ∧ t.sleep = .unknown ∧ t.sleepLatch = o.sleepLatch
  ok : t.res.err = .ok → t.res.nexch.toNat = o.nexch + es.countP isExchange
  misuse : t.res.err = .misuse → es = []

theorem answered_nexch {e : Event} {s t : State} (hA : awaitAnswer e s = .answered t) :
    t.res.nexch = if isExchange e then s.res.nexch + 1#4 else s.res.nexch := by
  rcases awaitAnswer_answered hA with ⟨sent, received, rfl, -, rfl⟩ | ⟨l, rfl, -, rfl⟩ | ⟨us, rfl, -, rfl⟩ <;>
    simp [isExchange]

/-- Issuing the next event. -/
theorem PreciseBetween.issue {o : Origin} {es : List Event} {g : Stage} {gs : List Stage} {s : State}
    (hb : Between (g :: gs) s) (h : PreciseBetween o es s) :
    PreciseWaiting o es (g.event s) (Machine.issue (g.event s) s) := by
  obtain ⟨-, hk⟩ := between_issue hb
  obtain ⟨⟨hat, hlen, hreg⟩, hcount, hle, hlatch⟩ := h
  refine ⟨⟨hat.issue _, by simp only [hk, List.length_append, List.length_singleton]; omega, ?_⟩, by simpa using hcount,
    by rw [hk, issue_res]; omega, fun hk1 => ?_⟩
  · rw [issue_req]
    refine fun h8 h9 => List.forall_mem_append.2 ⟨hreg h8 h9, List.forall_mem_singleton.2 ?_⟩
    obtain ⟨pre, hpl⟩ := hb.place
    cases hpl with
    | register _ _ hst =>
      obtain ⟨sent, he⟩ := (hst g List.mem_cons_self).event s
      rw [he]
      rfl
    | pin code | delay code => exact absurd code.opc (not_or.2 ⟨h8, h9⟩)
  · rw [issue_sleepLatch]
    exact hlatch (by omega)

/-- The failure of the event waited for is precise. -/
theorem PreciseWaiting.failed {o : Origin} {answered : List Event} {g : Stage} {gs : List Stage} {s t : State} {x : Err}
    {w : Bool} (hw : Waiting g gs s) (h : PreciseWaiting o answered (g.event s) s)
    (hA : awaitAnswer (g.event s) s = .failed x w t) : PreciseEnd o (answered ++ [g.event s]) (complete x w t) := by
  obtain ⟨⟨hat, hlen, hreg⟩, hcount, -, hlatch⟩ := h
  obtain ⟨-, -, -, -, hh, -⟩ := failed_keeps hA
  have hat' : AtIssue o (answered ++ [g.event s]) (complete x w t) := hat.of_history hh
  obtain ⟨pre, hpl, hk⟩ := hw.place
  rcases awaitAnswer_failed hA with ⟨sent, he, -, rfl, -, rfl⟩ | ⟨l, he, -, rfl, -, rfl⟩
  · refine ⟨hat', fun _ => ⟨answered, sent, by rw [he], ?_, by simp⟩, by simp, by simp, by simp⟩
    cases hpl with
    | register h8 h9 _ =>
      have hall := (List.forall_mem_append.1 (hreg h8 h9)).1
      simpa [List.countP_eq_length.2 hall] using hcount
    | pin | delay => exact nomatch he
  · refine ⟨hat', by simp, fun _ => ⟨l, ?_, by simp, ?_⟩, by simp, by simp⟩
    all_goals
      cases hpl with
      | register _ _ hst =>
        obtain ⟨sent, he'⟩ := (hst g List.mem_cons_self).event s
        exact nomatch he.symm.trans he'
      | delay => exact nomatch he
      | pin => ?_
    · rw [List.length_append, hk] at hlen
      obtain rfl : answered = [] := List.eq_nil_of_length_eq_zero (by simpa using hlen)
      rw [he]
      rfl
    · simpa using hlatch (by simp [hk])

/-- An answered exchange is counted. -/
theorem PreciseWaiting.answered {o : Origin} {answered : List Event} {g : Stage} {gs : List Stage} {s t : State}
    (hw : Waiting g gs s) (h : PreciseWaiting o answered (g.event s) s) (hA : awaitAnswer (g.event s) s = .answered t) :
    PreciseBetween o (answered ++ [g.event s]) (g.done t) := by
  obtain ⟨⟨hat, hlen, hreg⟩, hcount, hlt, -⟩ := h
  obtain ⟨-, -, -, hk, -, hreq, hh, -⟩ := answered_keeps hA
  have L := hw.laws g List.mem_cons_self
  have hk8 := hw.k_le
  have hn : (g.done t).res.nexch.toNat
      = s.res.nexch.toNat + if isExchange (g.event s) then 1 else 0 := by
    rw [L.nexch, answered_nexch hA]
    split
    · rw [BitVec.toNat_add]
      simp only [BitVec.toNat_ofNat]
      omega
    · rfl
  refine ⟨⟨hat.of_history ((L.history t).trans hh), by rwa [L.k, hk], by rwa [L.req, hreq]⟩, ?_, ?_, fun h0 => ?_⟩
  · rw [hn, hcount, List.countP_append, List.countP_singleton, Nat.add_assoc]
  · rw [hn, L.k, hk]
    split <;> omega
  · rw [L.k, hk] at h0
    omega

theorem carries_preciseEnd (o : Origin) :
    Carries (fun _ s => ∃ es, PreciseBetween o es s) (fun g _ s => ∃ answered, PreciseWaiting o answered (g.event s) s)
      (fun t => t.phase = .idle → ∃ es, PreciseEnd o es t) where
  atEnd s _ h _ := by
    obtain ⟨es, h⟩ := h
    exact ⟨es, h.accounted.atIssue.of_history rfl, by simp, by simp, fun _ => h.counted, by simp⟩
  issues g gs s hb h := by
    obtain ⟨es, h⟩ := h
    have he : g.event (issue (g.event s) s) = g.event s :=
      (hb.laws g List.mem_cons_self).event_ext _ _ (by simp) (by simp) (by simp)
    exact ⟨es, by rw [he]; exact h.issue hb⟩
  waits g gs s t hw _ hA ht := nomatch ht.symm.trans (waiting_waits hw hA).busy
  fails g gs s x w t hw h hA _ := by
    obtain ⟨answered, h⟩ := h
    exact ⟨_, h.failed hw hA⟩
  goesOn g gs s t hw h hA := by
    obtain ⟨answered, h⟩ := h
    exact ⟨_, h.answered hw hA⟩

/-- A request that ends in the step that accepts it. -/
theorem exec_preciseEnd {i : Instr} {s t : State} (hi : IsRequest i) (hs : s.phase = .idle) (hx : exec i s = .next t)
    (ht : t.phase = .idle) : ∃ es, PreciseEnd ⟨s.history, none, 0, s.sleepLatch⟩ es t := by
  refine (carries_preciseEnd _).exec hi hs hx (fun sub _ => ?_) (fun r p _ _ hp => ⟨[], ?_⟩) ht
  · exact ⟨[], ⟨[], by simp, rfl⟩, by simp, by simp, by simp, fun _ => rfl⟩
  · obtain ⟨-, -, hh, -⟩ := start_keeps hp (latch r s)
    have hres := withoutValues_start hp (latch r s)
    have hn : (p.start (latch r s)).res.nexch = 0#4 := (congrArg Result.nexch hres :)
    exact ⟨⟨⟨[], by simp [hh], rfl⟩, Nat.zero_le _, by simp⟩, by simp [hn], by simp [hn], fun _ => start_sleepLatch hp _⟩

/-- A BUSY block that meets the invariants stands at the first event of its account. -/
theorem ResultInv.preciseWaiting {g : Stage} {gs : List Stage} {s : State} (hr : ResultInv s) (hw : Waiting g gs s) :
    PreciseWaiting ⟨s.history, s.outstanding, s.res.nexch.toNat, s.sleepLatch⟩ [] (g.event s) s := by
  obtain ⟨pre, hpl, hk⟩ := hw.place
  have hrun := hr.running hw
  have hlt : s.res.nexch.toNat < s.k.toNat := by
    by_cases ho : s.req.opc = 0x8#4 ∨ s.req.opc = 0x9#4
    · rw [(hrun.power ho).1, hk]
      exact Nat.succ_pos _
    · rw [not_or] at ho
      rw [(hrun.register ho.1 ho.2).1, hk]
      exact Nat.lt_succ_self _
  refine ⟨⟨⟨[], by simp, by simp [hw.out]⟩, by simp [hk], fun h8 h9 => List.forall_mem_singleton.2 ?_⟩, by simp, hlt,
    fun _ => rfl⟩
  cases hpl with
  | register _ _ hreg =>
    obtain ⟨sent, he⟩ := (hreg g List.mem_cons_self).event s
    rw [he]
    rfl
  | pin code | delay code => exact absurd code.opc (not_or.2 ⟨h8, h9⟩)

/-- The last event issued is the last one at issue. -/
theorem lastIssued_eq_getLast? (before : Option Event) (es : List Event) :
    lastIssued before es = (before.toList ++ es).getLast? := by
  rw [lastIssued, List.getLast?_append]
  cases before <;> rfl

/-- A request that a later step ends. -/
theorem busyStep_preciseEnd {s t : State} (hi : SequencerInv s) (hr : ResultInv s) (hs : s.phase = .busy)
    (hx : step s = .next t) (ht : t.phase = .idle) :
    ∃ es, PreciseEnd ⟨s.history, s.outstanding, s.res.nexch.toNat, s.sleepLatch⟩ es t :=
  (carries_preciseEnd _).busyStep hi hs hx (fun _ _ hw => ⟨[], hr.preciseWaiting hw⟩) ht

/-- Settles O49: the account from the acceptance, and from the state that the later step finds. -/
theorem errorsArePrecise : Obligations.ErrorsArePrecise := by
  constructor
  · intro i s t es hi hs hx ht he
    obtain ⟨es', h⟩ := exec_preciseEnd hi hs hx ht
    obtain rfl : es' = es := h.atIssue.eq he
    obtain ⟨-, htr, hpin, hok, hmis⟩ := h
    exact ⟨fun e => by simpa using htr e, hpin, fun e => by simpa using hok e, hmis⟩
  · intro s t es hi hr hs hx ht he
    obtain ⟨es', h⟩ := busyStep_preciseEnd hi hr hs hx ht
    obtain ⟨g, gs, hw, -⟩ := waiting_of_inv hi hs
    obtain rfl : es' = s.outstanding.toList ++ es := h.atIssue.eq he
    obtain ⟨-, htr, hpin, hok, hmis⟩ := h
    simp only [hw.out, Option.toList_some, List.singleton_append] at htr hpin hmis
    refine ⟨fun e => ?_, fun e => ?_, hok, fun e => List.cons_ne_nil _ _ (hmis e)⟩
    · obtain ⟨answered, sent, hes, hn, hx⟩ := htr e
      have hlen : es.length = answered.length := by simpa using congrArg List.length hes
      refine ⟨sent, ?_, by rw [hn, hlen], hx⟩
      rw [lastIssued_eq_getLast?, hw.out, Option.toList_some, List.singleton_append, hes, List.getLast?_concat]
    · obtain ⟨l, hes, hsl, hl⟩ := hpin e
      obtain ⟨hg, hnil⟩ := List.cons.inj hes
      exact ⟨l, by rw [hw.out, hg], hnil, hsl, hl⟩

end Sys2Proof.Machine
end

section
/-!
Steps one by one: what an IDLE block does with the offer, and what a BUSY one does with the answer to its event, or without
one.
-/

namespace Sys2Proof.Machine

/-! ### A refusal (R220, R332) -/

theorem refuseRequest_idle (sub : MisuseSub) {s : State} (hs : s.phase = .idle) : refuseRequest sub s = misused sub s := by
  rw [refuseRequest, hs]
  rfl

/-- Settles O25: each of the seven arms refuses with RESERVED_OPC. -/
theorem reservedOpcodesAreRefused : Obligations.ReservedOpcodesAreRefused := by
  rintro i s ⟨rest, hi⟩ hs
  have h : exec i s = .next (refuseRequest .reservedOpc s) := by
    rcases hi with rfl | rfl | rfl | rfl | rfl | rfl | rfl <;> rfl
  rw [h, refuseRequest_idle _ hs]

/-- Settles O27: the arm of a pseudo-instruction is that of its expansion. -/
theorem pseudoInstructionsDoWhatTheyStandFor : Obligations.PseudoInstructionsDoWhatTheyStandFor := by
  intro i s
  cases i <;> rfl

/-! ### An IDLE block (R220, D26) -/

/-- Settles O28. -/
theorem stepRunsTheDecodedInstruction : Obligations.StepRunsTheDecodedInstruction := by
  intro s r more i hs ho hd
  simp only [step, hs, ho, hd]

/-- Settles O33. -/
theorem anIdleBlockKeepsItsResult : Obligations.AnIdleBlockKeepsItsResult := by
  intro s hs ho
  simp only [step, hs, ho]

/-- Settles O29: a record that VALIDATE rejects is refused with its sub-code. -/
theorem invalidHeadersAreRefusedBeforeAnyEvent : Obligations.InvalidHeadersAreRefusedBeforeAnyEvent := by
  intro s r more sub hs ho hv
  rcases step_offer hs ho with ⟨sub', hv', hx⟩ | ⟨hv', -⟩
  · obtain rfl : sub = sub' := by simpa [hv] using hv'
    exact hx
  · simp [hv] at hv'

/-! ### A BUSY block (R12, R220) -/

/-- Settles O30: neither a request nor the answer to an event touches the offers. -/
theorem requestsWaitWhileBusy : Obligations.RequestsWaitWhileBusy := by
  refine fun s hs => ⟨fun i hi => exec_busy hi hs, fun t hx => ?_⟩
  obtain ⟨p, hp, rfl⟩ : ∃ p, programOf s.req.opc = some p ∧ t = resume p s := by simpa [hs] using step_cases hx
  exact untouched_offers.resume fun g hg => (stageLaws hp s g hg).offers

/-- What the answer to the event of stage g leads to, the stages gs being left. -/
def afterAnswer (g : Stage) (gs : List Stage) : Answer → State
  | .waiting t => t
  | .failed e wrote t => complete e wrote t
  | .answered t => runStages gs (g.done t)

theorem runStages_cons (g : Stage) (gs : List Stage) (s : State) :
    runStages (g :: gs) s = afterAnswer g gs (awaitAnswer (g.event s) (issue (g.event s) s)) := by
  rw [runStages]
  cases awaitAnswer (g.event s) (issue (g.event s) s) <;> rfl

/-- A block that waits for an event takes its answer. -/
theorem Waiting.step_eq {g : Stage} {gs : List Stage} {s : State} (hw : Waiting g gs s) :
    step s = .next (afterAnswer g gs (awaitAnswer (g.event s) s)) := by
  obtain ⟨p, hp, pre, hst, hk⟩ := hw.point
  have hd : (p.stages s).drop (s.k.toNat - 1) = g :: gs := by rw [hst, hk, Nat.add_sub_cancel, List.drop_left]
  simp only [step, hw.busy, continueBusy, hp, resume, hw.out]
  cases awaitAnswer (g.event s) s <;> simp only [afterAnswer, hd]

theorem awaitAnswer_exchange_notYet {s : State} {rest : List BusReply} (sent : List Byte)
    (h : s.transport = .notYet :: rest) : awaitAnswer (.exchange sent) s = .waiting { s with transport := rest } := by
  simp only [awaitAnswer, nextBusReply_cons h, takeBusReply_cons h]

theorem awaitAnswer_pinSet_notYet {s : State} {rest : List PinReply} (l : PinLevel) (h : s.sleepPin = .notYet :: rest) :
    awaitAnswer (.pinSet l) s = .waiting { s with sleepPin := rest } := by
  simp only [awaitAnswer, nextPinReply_cons h, takePinReply_cons h]

theorem awaitAnswer_delay_notYet {s : State} {rest : List DelayReply} (us : Nat) (h : s.delay = .notYet :: rest) :
    awaitAnswer (.delay us) s = .waiting { s with delay := rest } := by
  simp only [awaitAnswer, nextDelayReply_cons h, takeDelayReply_cons h]

/-- A step of a BUSY block in which its event is not answered. -/
theorem step_unanswered {s t : State} {e : Event} (hi : SequencerInv s) (hs : s.phase = .busy) (ho : s.outstanding = some e)
    (hA : awaitAnswer e s = .waiting t) : step s = .next t := by
  obtain ⟨g, gs, hw, -⟩ := waiting_of_inv hi hs
  obtain rfl : e = g.event s := by simpa [ho] using hw.out
  rw [hw.step_eq, hA]
  rfl

/-- Settles O31: for each agent, the answer "not yet" is all that is taken. -/
theorem anUnansweredEventHoldsTheBlock : Obligations.AnUnansweredEventHoldsTheBlock := fun _ hi hs =>
  ⟨fun sent _ ho h => step_unanswered hi hs ho (awaitAnswer_exchange_notYet sent h),
    fun l _ ho h => step_unanswered hi hs ho (awaitAnswer_pinSet_notYet l h),
    fun us _ ho h => step_unanswered hi hs ho (awaitAnswer_delay_notYet us h)⟩

end Sys2Proof.Machine
end

section
/-!
A late answer (R12; log 4). `Late u a v` says that u has one "not yet" of agent a ahead of it, with no earlier one of that
agent's, and v is u without it. The runs from u and v go alike until the wait for it; there the block stands exactly where
the run from v does before it takes its answer.
-/

namespace Sys2Proof.Machine

/-! ### Runs side by side -/

/-- A relation of states that what follows a returned event keeps: related states agree in all that it reads, and each of its
writes, made to both, leaves them related. -/
structure StageCongr (R : State → State → Prop) : Prop where
  params : ∀ {u v}, R u v → v.params = u.params
  req : ∀ {u v}, R u v → v.req = u.req
  bundle : ∀ {u v}, R u v → v.bundle = u.bundle
  contents : ∀ {u v}, R u v → ∀ j < 4, byteAt v.rx (2 * j + 1) = byteAt u.rx (2 * j + 1)
  setValue : ∀ {u v} b, R u v → R (setValue b u) (setValue b v)
  setWvalue : ∀ {u v} b, R u v → R (setWvalue b u) (setWvalue b v)
  setCfg : ∀ {u v} c, R u v → R (setCfg c u) (setCfg c v)
  setWcfg : ∀ {u v} c, R u v → R (setWcfg c u) (setWcfg c v)
  setBundle : ∀ {u v} j b, R u v → R (setBundle j b u) (setBundle j b v)
  setSleepLatch : ∀ {u v} l, R u v → R (setSleepLatch l u) (setSleepLatch l v)
  setSleep : ∀ {u v} x, R u v → R (setSleep x u) (setSleep x v)

namespace StageCongr
variable {R : State → State → Prop} (hR : StageCongr R)
include hR

theorem packBundle {u v : State} (h : R u v) : packBundle v = packBundle u := by
  simp only [Machine.packBundle, hR.bundle h]

/-- An exchange of one read frame, if what takes the byte keeps the relation. -/
theorem xread (addr : State → Nat) {keep : Byte → State → State}
    (hk : ∀ b u v, R u v → R (keep b u) (keep b v)) {u v : State} (h : R u v) :
    R ((xread addr keep).done u) ((xread addr keep).done v) := by
  have hb : byteAt v.rx 1 = byteAt u.rx 1 := hR.contents h 0 (by decide)
  simpa only [Machine.xread, hb] using hk (byteAt u.rx 1) u v h

/-- A read phase, if what takes the configuration keeps the relation. -/
theorem readPhase (batched : Bool) {keep : Cfg → State → State} (hk : ∀ c u v, R u v → R (keep c u) (keep c v)) :
    ∀ g ∈ readPhase batched keep, ∀ u v, R u v → R (g.done u) (g.done v) := by
  cases batched <;> simp only [Machine.readPhase, Bool.false_eq_true, if_false, if_true, List.forall_mem_cons]
  · refine ⟨fun u v => hR.xread _ fun b _ _ => hR.setBundle 0 b, fun u v => hR.xread _ fun b _ _ => hR.setBundle 1 b,
      fun u v => hR.xread _ fun b _ _ => hR.setBundle 2 b, fun u v => hR.xread _ fun b u v h => ?_, List.forall_mem_nil _⟩
    have hb := hR.setBundle 3 b h
    simpa only [hR.packBundle hb] using hk _ _ _ hb
  · refine ⟨fun u v h => ?_, List.forall_mem_nil _⟩
    have h1 : byteAt v.rx 1 = byteAt u.rx 1 := hR.contents h 0 (by decide)
    have h3 : byteAt v.rx 3 = byteAt u.rx 3 := hR.contents h 1 (by decide)
    have h5 : byteAt v.rx 5 = byteAt u.rx 5 := hR.contents h 2 (by decide)
    have h7 : byteAt v.rx 7 = byteAt u.rx 7 := hR.contents h 3 (by decide)
    simpa only [xbatch, h1, h3, h5, h7] using hk _ _ _ h

omit hR in
theorem writePhase (batched : Bool) : ∀ g ∈ writePhase batched, ∀ u v, R u v → R (g.done u) (g.done v) := by
  cases batched <;> simp only [Machine.writePhase, Bool.false_eq_true, if_false, if_true, List.forall_mem_cons]
  · exact ⟨fun _ _ h => h, fun _ _ h => h, fun _ _ h => h, fun _ _ h => h, List.forall_mem_nil _⟩
  · exact ⟨fun _ _ h => h, List.forall_mem_nil _⟩

theorem powerStages (l : PinLevel) (wait : State → Nat) (x : SleepState) :
    ∀ g ∈ powerStages l wait x, ∀ u v, R u v → R (g.done u) (g.done v) :=
  List.forall_mem_cons.2 ⟨fun _ _ => hR.setSleepLatch l, List.forall_mem_singleton.2 fun _ _ => hR.setSleep x⟩

/-- What any request does once an event has returned. -/
theorem stages {o : BitVec 4} {p : Program} (h : programOf o = some p) (s : State) :
    ∀ g ∈ p.stages s, ∀ u v, R u v → R (g.done u) (g.done v) := by
  have write (u v : State) (h : R u v) : R u v := h
  cases o, p, h using programOf_elim with
  | readReg => exact List.forall_mem_singleton.2 fun _ _ => hR.xread _ fun b _ _ => hR.setValue b
  | writeReg => exact List.forall_mem_singleton.2 write
  | modifyReg =>
    refine List.forall_mem_cons.2 ⟨fun _ _ => hR.xread _ fun b u v h => ?_, List.forall_mem_singleton.2 write⟩
    simpa only [latchRegFn, hR.req h] using hR.setWvalue (latchRegFn u.req b) (hR.setValue b h)
  | readConfig => exact hR.readPhase _ fun c _ _ => hR.setCfg c
  | writeConfig => exact writePhase _
  | modifyConfig =>
    refine List.forall_mem_append.2 ⟨hR.readPhase _ fun c u v h => ?_, writePhase _⟩
    simpa only [latchCfgFn, hR.req h] using hR.setWcfg (latchCfgFn u.req c) (hR.setCfg c h)
  | clearFault =>
    refine List.forall_mem_cons.2 ⟨fun _ _ => hR.xread _ fun b u v h => ?_, List.forall_mem_singleton.2 write⟩
    simpa only [hR.params h] using hR.setWvalue (b ||| clearFaultMask u.params) (hR.setValue b h)
  | awaken =>
    simp only [awakenProgram]
    split
    · exact List.forall_mem_nil _
    · exact hR.powerStages _ _ _
  | sleep =>
    simp only [sleepProgram]
    split
    · exact List.forall_mem_nil _
    · exact hR.powerStages _ _ _

/-- What a request does before its first event. -/
theorem start {o : BitVec 4} {p : Program} (hp : programOf o = some p) {u v : State} (h : R u v) :
    R (p.start u) (p.start v) := by
  cases o, p, hp using programOf_elim with
  | writeReg => simpa only [writeRegProgram, hR.req h] using hR.setWvalue u.req.data h
  | writeConfig => simpa only [writeConfigProgram, hR.req h] using hR.setWcfg u.req.cfg h
  | _ => exact h

end StageCongr

/-! ### The three agents -/

/-- Who answers an event (R11). -/
inductive Agent
  | bus | pin | clock

def agentOf : Event → Agent
  | .exchange _ => .bus
  | .pinSet _ => .pin
  | .delay _ => .clock

/-- s with other answers laid out. -/
def withAnswers (b : List BusReply) (p : List PinReply) (d : List DelayReply) (s : State) : State :=
  { s with transport := b, sleepPin := p, delay := d }

/-- u has a "not yet" of the agent ahead of it, the agent's first, and v is u without it. -/
inductive Late (u : State) : Agent → State → Prop
  | bus {before rest : List BusReply} (first : .notYet ∉ before) (h : u.transport = before ++ .notYet :: rest) :
      Late u .bus (withAnswers (before ++ rest) u.sleepPin u.delay u)
  | pin {rest : List PinReply} (h : u.sleepPin = .notYet :: rest) : Late u .pin (withAnswers u.transport rest u.delay u)
  | clock {rest : List DelayReply} (h : u.delay = .notYet :: rest) :
      Late u .clock (withAnswers u.transport u.sleepPin rest u)

namespace Late
variable {u v : State} {a : Agent}

/-- What neither reads nor writes the answers laid out keeps the relation. -/
theorem map (h : Late u a v) {F : State → State} (hb : (F u).transport = u.transport)
    (hp : (F u).sleepPin = u.sleepPin) (hd : (F u).delay = u.delay)
    (hF : ∀ b p d, F (withAnswers b p d u) = withAnswers b p d (F u)) : Late (F u) a (F v) := by
  cases h with
  | bus first h => rw [hF, ← hp, ← hd]; exact .bus first (hb.trans h)
  | pin h => rw [hF, ← hb, ← hd]; exact .pin (hp.trans h)
  | clock h => rw [hF, ← hb, ← hp]; exact .clock (hd.trans h)

theorem exists_withAnswers (h : Late u a v) : ∃ b p d, v = withAnswers b p d u := by
  cases h <;> exact ⟨_, _, _, rfl⟩

theorem issue (h : Late u a v) (e : Event) : Late (issue e u) a (issue e v) :=
  h.map (by simp) (by simp) (by simp) fun _ _ _ => by cases e <;> rfl

theorem stageCongr (a : Agent) : StageCongr fun u v => Late u a v where
  params h := by obtain ⟨_, _, _, rfl⟩ := h.exists_withAnswers; rfl
  req h := by obtain ⟨_, _, _, rfl⟩ := h.exists_withAnswers; rfl
  bundle h := by obtain ⟨_, _, _, rfl⟩ := h.exists_withAnswers; rfl
  contents h _ _ := by obtain ⟨_, _, _, rfl⟩ := h.exists_withAnswers; rfl
  setValue _ h := h.map rfl rfl rfl fun _ _ _ => rfl
  setWvalue _ h := h.map rfl rfl rfl fun _ _ _ => rfl
  setCfg _ h := h.map rfl rfl rfl fun _ _ _ => rfl
  setWcfg _ h := h.map rfl rfl rfl fun _ _ _ => rfl
  setBundle _ _ h := h.map rfl rfl rfl fun _ _ _ => rfl
  setSleepLatch _ h := h.map rfl rfl rfl fun _ _ _ => rfl
  setSleep _ h := h.map rfl rfl rfl fun _ _ _ => rfl

/-! ### The wait for an answer -/

/-- Where u waits for the late agent, v stands as u does then. -/
theorem eq_of_waiting (h : Late u a v) {e : Event} (he : agentOf e = a) {t : State} (hA : awaitAnswer e u = .waiting t) :
    t = v := by
  subst he
  cases e with
  | exchange sent =>
    cases h with
    | @bus before rest first h =>
      cases before with
      | nil => simpa [awaitAnswer_exchange_notYet sent h, eq_comm, withAnswers] using hA
      | cons r before =>
        simp only [awaitAnswer, nextBusReply_cons h] at hA
        cases r with
        | ok | err => simp at hA
        | notYet => simp at first
  | pinSet l =>
    cases h with
    | pin h => simpa [awaitAnswer_pinSet_notYet l h, eq_comm, withAnswers] using hA
  | delay us =>
    cases h with
    | clock h => simpa [awaitAnswer_delay_notYet us h, eq_comm, withAnswers] using hA

/-! Answers other than "not yet" are the same in both, and leave the late one ahead. -/

theorem takeBusReply (h : Late u a v) (hr : nextBusReply u ≠ .notYet) :
    nextBusReply v = nextBusReply u ∧ Late (takeBusReply u) a (takeBusReply v) := by
  have other (p d) : Machine.takeBusReply (withAnswers u.transport p d u)
      = withAnswers (Machine.takeBusReply u).transport p d (Machine.takeBusReply u) := by
    cases ht : u.transport <;> simp [Machine.takeBusReply, withAnswers, ht]
  cases h with
  | @bus before rest first h =>
    cases before with
    | nil => exact absurd (nextBusReply_cons h) hr
    | cons r before =>
      rw [nextBusReply_cons h, takeBusReply_cons h]
      exact ⟨rfl, .bus (u := { u with transport := before ++ .notYet :: rest })
        (fun hm => first (List.mem_cons_of_mem r hm)) rfl⟩
  | pin h => exact ⟨rfl, by simpa [other] using Late.pin (u := Machine.takeBusReply u) (by simpa using h)⟩
  | clock h => exact ⟨rfl, by simpa [other] using Late.clock (u := Machine.takeBusReply u) (by simpa using h)⟩

theorem takePinReply (h : Late u a v) (hr : nextPinReply u ≠ .notYet) :
    nextPinReply v = nextPinReply u ∧ Late (takePinReply u) a (takePinReply v) := by
  have other (b d) : Machine.takePinReply (withAnswers b u.sleepPin d u)
      = withAnswers b (Machine.takePinReply u).sleepPin d (Machine.takePinReply u) := by
    cases ht : u.sleepPin <;> simp [Machine.takePinReply, withAnswers, ht]
  cases h with
  | bus first h => exact ⟨rfl, by simpa [other] using Late.bus (u := Machine.takePinReply u) first (by simpa using h)⟩
  | pin h => exact absurd (nextPinReply_cons h) hr
  | clock h => exact ⟨rfl, by simpa [other] using Late.clock (u := Machine.takePinReply u) (by simpa using h)⟩

theorem takeDelayReply (h : Late u a v) (hr : nextDelayReply u ≠ .notYet) :
    nextDelayReply v = nextDelayReply u ∧ Late (takeDelayReply u) a (takeDelayReply v) := by
  have other (b p) : Machine.takeDelayReply (withAnswers b p u.delay u)
      = withAnswers b p (Machine.takeDelayReply u).delay (Machine.takeDelayReply u) := by
    cases ht : u.delay <;> simp [Machine.takeDelayReply, withAnswers, ht]
  cases h with
  | bus first h =>
    exact ⟨rfl, by simpa [other] using Late.bus (u := Machine.takeDelayReply u) first (by simpa using h)⟩
  | pin h => exact ⟨rfl, by simpa [other] using Late.pin (u := Machine.takeDelayReply u) (by simpa using h)⟩
  | clock h => exact absurd (nextDelayReply_cons h) hr

/-- An event that returns to u returns to v alike. -/
theorem answered (h : Late u a v) {e : Event} {t : State} (hA : awaitAnswer e u = .answered t) :
    ∃ t', awaitAnswer e v = .answered t' ∧ Late t a t' := by
  rcases awaitAnswer_answered hA with ⟨sent, received, rfl, hr, rfl⟩ | ⟨l, rfl, hr, rfl⟩ | ⟨us, rfl, hr, rfl⟩
  · obtain ⟨hn, ht⟩ := h.takeBusReply (by simp [hr])
    exact ⟨recordExchange sent.length received (Machine.takeBusReply v), by simp only [awaitAnswer, hn, hr],
      ht.map rfl rfl rfl fun _ _ _ => rfl⟩
  · obtain ⟨hn, ht⟩ := h.takePinReply (by simp [hr])
    exact ⟨clearOutstanding (Machine.takePinReply v), by simp only [awaitAnswer, hn, hr],
      ht.map rfl rfl rfl fun _ _ _ => rfl⟩
  · obtain ⟨hn, ht⟩ := h.takeDelayReply (by simp [hr])
    exact ⟨clearOutstanding (Machine.takeDelayReply v), by simp only [awaitAnswer, hn, hr],
      ht.map rfl rfl rfl fun _ _ _ => rfl⟩

theorem event_eq (h : Late u a v) {g : Stage} (L : StageLaws g) : g.event v = g.event u := by
  obtain ⟨_, _, _, rfl⟩ := h.exists_withAnswers
  exact L.event_ext u _ rfl rfl rfl

/-- Where the run from u waits for the late agent, a step makes of it what the run from v is. -/
theorem step_runStages {gs : List Stage} (h : Late u a v) (hb : Between gs u)
    (hc : ∀ g ∈ gs, ∀ u v, Late u a v → Late (g.done u) a (g.done v)) {e : Event} (he : agentOf e = a)
    (hs : (runStages gs u).phase = .busy) (ho : (runStages gs u).outstanding = some e) :
    step (runStages gs u) = .next (runStages gs v) := by
  induction gs generalizing u v with
  | nil => simp at hs
  | cons g gs ih =>
    have hw := (between_issue hb).1
    have L := hb.laws g List.mem_cons_self
    have hi := h.issue (g.event u)
    have hev : g.event (Machine.issue (g.event u) u) = g.event u := by simpa [eq_comm] using hw.out
    rw [runStages_cons g gs v, h.event_eq L]
    rw [runStages_cons] at hs ho ⊢
    cases hA : awaitAnswer (g.event u) (Machine.issue (g.event u) u) with
    | waiting t =>
      rw [hA] at ho
      change step t = _
      change t.outstanding = some e at ho
      have hwt := waiting_waits hw hA
      obtain ⟨-, -, -, -, hout, -⟩ := take_keeps hA
      obtain rfl : e = g.event u := by simpa [hout, eq_comm] using ho
      obtain rfl : t = Machine.issue (g.event u) v := hi.eq_of_waiting he hA
      rw [hwt.step_eq, hi.event_eq L, hev]
    | failed x w t => simp [hA, afterAnswer] at hs
    | answered t =>
      obtain ⟨t', hA', ht⟩ := hi.answered hA
      simp only [hA, hA', afterAnswer] at hs ho ⊢
      exact ih (hc g List.mem_cons_self _ _ ht) (waiting_answered hw hA)
        (fun g' hg => hc g' (List.mem_cons_of_mem _ hg)) hs ho

end Late

/-- A request that waits for the late agent goes on, in the next step, as the one whose answer was there at once. -/
theorem exec_late {i : Instr} {u v t : State} {a : Agent} (hi : IsRequest i) (h : Late u a v) (hs : u.phase = .idle)
    (ht : t.phase = .busy) (hx : exec i u = .next t) {e : Event} (he : agentOf e = a) (ho : t.outstanding = some e) :
    step t = exec i v := by
  obtain ⟨r, p, ha⟩ := exists_acceptedAs hi u
  have hv : exec i v = .next (acceptRequest r p v) := by
    obtain ⟨_, _, _, rfl⟩ := h.exists_withAnswers
    exact ha.exec_of _ rfl rfl
  have hsv : v.phase = .idle := by
    obtain ⟨_, _, _, rfl⟩ := h.exists_withAnswers
    exact hs
  obtain rfl : acceptRequest r p u = t := by simpa [ha.exec_eq] using hx
  cases hval : validate r.header with
  | some sub => simp [acceptRequest_refused p hs hval, hs] at ht
  | none =>
    have hp : programOf (headerOpc r.header) = some p := ha.opc ▸ ha.program hval
    have hl : Late (latch r u) a (latch r v) := h.map rfl rfl rfl fun _ _ _ => rfl
    have hst : p.stages (latch r v) = p.stages (latch r u) := by
      obtain ⟨_, _, _, hw⟩ := hl.exists_withAnswers
      exact stages_ext hp (by rw [hw]; rfl) (by rw [hw]; rfl)
    rw [acceptRequest_valid p hs hval] at ht ho ⊢
    rw [hv, acceptRequest_valid p hsv hval, hst]
    exact ((Late.stageCongr a).start hp hl).step_runStages (between_start hval hp) ((Late.stageCongr a).stages hp _) he ht ho

/-- Settles O32: the late answer is the transport's, the pin's or the delay service's. -/
theorem aLateAnswerChangesNothing : Obligations.ALateAnswerChangesNothing := fun _ s _ hi hs ht =>
  ⟨fun before rest _ first hx ho =>
      exec_late hi (.bus (u := { s with transport := before ++ .notYet :: rest }) first rfl) hs ht hx rfl ho,
    fun rest _ hx ho => exec_late hi (.pin (u := { s with sleepPin := .notYet :: rest }) rfl) hs ht hx rfl ho,
    fun rest _ hx ho => exec_late hi (.clock (u := { s with delay := .notYet :: rest }) rfl) hs ht hx rfl ho⟩

end Sys2Proof.Machine
end

section
/-!
Reported faults are data (R331). Two states are status twins if they differ in what status bytes write alone and have the
same bytes ahead of them but for the status bytes. Every operation of a run keeps twins, since none of them reads a status
byte but to record it or to aggregate it.
-/

namespace Sys2Proof.Machine

/-! ### Answers that differ in their status bytes alone -/

theorem sameButStatus_cons {r r' : BusReply} {l l' : List BusReply} :
    SameButStatus (r :: l) (r' :: l') ↔ SameButStatus [r] [r'] ∧ SameButStatus l l' := by
  cases r <;> cases r' <;> simp [SameButStatus, and_assoc]

theorem sameButStatus_refl_singleton (r : BusReply) : SameButStatus [r] [r] := by
  cases r <;> simp [SameButStatus]

/-- A record without what status bytes write to it. -/
def withoutStatus (r : Result) : Result := { r with st := Result.cleared.st, fault := none }

/-- Of the status bytes recorded only their number counts. -/
theorem withoutStatus_recordStatuses {cs ds : List Byte} {r r' : Result} (hl : ds.length = cs.length)
    (h : withoutStatus r' = withoutStatus r) :
    withoutStatus (recordStatuses ds r') = withoutStatus (recordStatuses cs r) := by
  induction cs generalizing ds r r' with
  | nil =>
    obtain rfl := List.eq_nil_of_length_eq_zero hl
    exact h
  | cons c cs ih =>
    obtain ⟨d, ds, rfl⟩ := List.exists_cons_of_length_eq_add_one hl
    simp only [List.length_cons, Nat.add_right_cancel_iff] at hl
    rw [recordStatuses, recordStatuses]
    exact ih hl (congrArg (fun r => { r with nframes := r.nframes + 1#4 }) h)

/-- The contents bytes of two answers that differ in their status bytes alone (R75). -/
theorem contents_of_sameButStatus {x y : Bytes8} (h : SameButStatus [.ok x] [.ok y]) :
    ∀ j, (hj : j < 4) → y[2 * j + 1] = x[2 * j + 1] := by
  obtain ⟨h1, h3, h5, h7, -⟩ := h
  intro j hj
  match j, hj with
  | 0, _ => exact h1.symm
  | 1, _ => exact h3.symm
  | 2, _ => exact h5.symm
  | 3, _ => exact h7.symm

theorem forgetStatus_recordExchange (n : Nat) (x : Bytes8) (s : State) :
    forgetStatus (recordExchange n x s) = { forgetStatus s with
      outstanding := none
      res := withoutStatus (recordStatuses (statusBytes n x) { s.res with nexch := s.res.nexch + 1#4 }) } := rfl

/-! ### Twins -/

/-- The states differ in what status bytes write alone, and so do the answers to come. -/
structure StatusTwin (u v : State) : Prop where
  rest : forgetStatus v = forgetStatus u
  contents : ∀ j < 4, byteAt v.rx (2 * j + 1) = byteAt u.rx (2 * j + 1)
  answers : SameButStatus u.transport v.transport

namespace StatusTwin
variable {u v : State}

/-- What reads nothing of what status bytes write, but to write it again, keeps twins. -/
theorem map (h : StatusTwin u v) {F : State → State} (hF : ∀ s, forgetStatus (F s) = forgetStatus (F (forgetStatus s)))
    (hx : ∀ s, (F s).rx = s.rx) (ht : ∀ s, (F s).transport = s.transport) : StatusTwin (F u) (F v) where
  rest := by rw [hF v, h.rest, ← hF u]
  contents := by simpa only [hx] using h.contents
  answers := by simpa only [ht] using h.answers

/-- A part of State that status bytes do not write is the same in both. -/
theorem view (h : StatusTwin u v) {α : Type} {f : State → α} (hf : ∀ s, f (forgetStatus s) = f s) : f v = f u := by
  rw [← hf v, h.rest, hf u]

theorem stageCongr : StageCongr StatusTwin where
  params h := h.view fun _ => rfl
  req h := h.view fun _ => rfl
  bundle h := h.view fun _ => rfl
  contents h := h.contents
  setValue _ h := h.map (fun _ => rfl) (fun _ => rfl) fun _ => rfl
  setWvalue _ h := h.map (fun _ => rfl) (fun _ => rfl) fun _ => rfl
  setCfg _ h := h.map (fun _ => rfl) (fun _ => rfl) fun _ => rfl
  setWcfg _ h := h.map (fun _ => rfl) (fun _ => rfl) fun _ => rfl
  setBundle _ _ h := h.map (fun _ => rfl) (fun _ => rfl) fun _ => rfl
  setSleepLatch _ h := h.map (fun _ => rfl) (fun _ => rfl) fun _ => rfl
  setSleep _ h := h.map (fun _ => rfl) (fun _ => rfl) fun _ => rfl

theorem issue (h : StatusTwin u v) (e : Event) : StatusTwin (issue e u) (issue e v) :=
  h.map (fun _ => by cases e <;> rfl) (by simp) (by simp)

theorem complete (h : StatusTwin u v) (e : Err) (wrote : Bool) : StatusTwin (complete e wrote u) (complete e wrote v) :=
  h.map (fun _ => rfl) (fun _ => rfl) fun _ => rfl

/-! ### The wait for an answer -/

theorem takeBusReply (h : StatusTwin u v) :
    SameButStatus [nextBusReply u] [nextBusReply v] ∧ StatusTwin (takeBusReply u) (takeBusReply v) := by
  have hd : v.drawn = u.drawn := h.view fun _ => rfl
  have ha := h.answers
  cases hu : u.transport with
  | nil =>
    cases hv : v.transport with
    | nil =>
      simp only [nextBusReply, Machine.takeBusReply, hu, hv, hd]
      exact ⟨sameButStatus_refl_singleton _, congrArg (fun s => { s with drawn := u.drawn + 1 }) h.rest, h.contents, by
        simp [SameButStatus]⟩
    | cons r' l' => simp [hu, hv, SameButStatus] at ha
  | cons r l =>
    cases hv : v.transport with
    | nil => cases r <;> simp [hu, hv, SameButStatus] at ha
    | cons r' l' =>
      obtain ⟨hr, hl⟩ := sameButStatus_cons.1 (hu ▸ hv ▸ ha)
      rw [nextBusReply_cons hu, nextBusReply_cons hv, takeBusReply_cons hu, takeBusReply_cons hv]
      exact ⟨hr, h.rest, h.contents, hl⟩

theorem recordExchange (h : StatusTwin u v) (n : Nat) {x y : Bytes8} (hxy : SameButStatus [.ok x] [.ok y]) :
    StatusTwin (recordExchange n x u) (recordExchange n y v) where
  rest := by
    have hl : (statusBytes n y).length = (statusBytes n x).length := by simp [statusBytes]
    have hn : withoutStatus { v.res with nexch := v.res.nexch + 1#4 }
        = withoutStatus { u.res with nexch := u.res.nexch + 1#4 } :=
      h.view (f := fun s => withoutStatus { s.res with nexch := s.res.nexch + 1#4 }) fun _ => rfl
    simp only [forgetStatus_recordExchange, h.rest, withoutStatus_recordStatuses hl hn]
  contents j hj := by
    have hj8 : 2 * j + 1 < 8 := by omega
    have hc := h.contents j hj
    simp only [recordExchange_rx, byteAt_of_lt _ hj8, loadRx_get _ _ _ hj8] at hc ⊢
    rw [contents_of_sameButStatus hxy j hj, hc]
  answers := h.answers

/-- The two answers to the same event: alike but for the status bytes. -/
inductive Replies : Answer → Answer → Prop
  | waiting {u v : State} (h : StatusTwin u v) : Replies (.waiting u) (.waiting v)
  | failed {u v : State} (e : Err) (wrote : Bool) (h : StatusTwin u v) : Replies (.failed e wrote u) (.failed e wrote v)
  | answered {u v : State} (h : StatusTwin u v) : Replies (.answered u) (.answered v)

theorem awaitAnswer (h : StatusTwin u v) (e : Event) : Replies (awaitAnswer e u) (awaitAnswer e v) := by
  cases e with
  | exchange sent =>
    obtain ⟨hr, ht⟩ := h.takeBusReply
    simp only [Machine.awaitAnswer]
    cases hu : nextBusReply u <;> cases hv : nextBusReply v <;> simp only [hu, hv, SameButStatus] at hr
    · exact .answered (ht.recordExchange _ hr)
    · exact .failed _ _ (ht.map (fun _ => rfl) (fun _ => rfl) fun _ => rfl)
    · exact .waiting ht
  | pinSet l =>
    have hr : nextPinReply v = nextPinReply u := h.view fun _ => rfl
    have ht : StatusTwin (takePinReply u) (takePinReply v) := h.map
      (fun s => by cases hp : s.sleepPin <;> simp [takePinReply, forgetStatus, hp]) (by simp) (by simp)
    simp only [Machine.awaitAnswer, hr]
    cases nextPinReply u with
    | ok => exact .answered (ht.map (fun _ => rfl) (fun _ => rfl) fun _ => rfl)
    | err => exact .failed _ _ (ht.map (fun _ => rfl) (fun _ => rfl) fun _ => rfl)
    | notYet => exact .waiting ht
  | delay us =>
    have hr : nextDelayReply v = nextDelayReply u := h.view fun _ => rfl
    have ht : StatusTwin (takeDelayReply u) (takeDelayReply v) := h.map
      (fun s => by cases hd : s.delay <;> simp [takeDelayReply, forgetStatus, hd]) (by simp) (by simp)
    simp only [Machine.awaitAnswer, hr]
    cases nextDelayReply u with
    | done => exact .answered (ht.map (fun _ => rfl) (fun _ => rfl) fun _ => rfl)
    | notYet => exact .waiting ht

end StatusTwin

/-! ### Runs -/

/-- The event is not read from what status bytes write. -/
def EventIgnoresStatus (g : Stage) : Prop := ∀ s, g.event (forgetStatus s) = g.event s

theorem eventIgnoresStatus_readPhase (batched : Bool) (keep : Cfg → State → State) :
    ∀ g ∈ readPhase batched keep, EventIgnoresStatus g := by
  cases batched <;> simp only [readPhase, Bool.false_eq_true, if_false, if_true, List.forall_mem_cons]
  · exact ⟨fun _ => rfl, fun _ => rfl, fun _ => rfl, fun _ => rfl, List.forall_mem_nil _⟩
  · exact ⟨fun _ => rfl, List.forall_mem_nil _⟩

theorem eventIgnoresStatus_writePhase (batched : Bool) : ∀ g ∈ writePhase batched, EventIgnoresStatus g := by
  cases batched <;> simp only [writePhase, Bool.false_eq_true, if_false, if_true, List.forall_mem_cons]
  · exact ⟨fun _ => rfl, fun _ => rfl, fun _ => rfl, fun _ => rfl, List.forall_mem_nil _⟩
  · exact ⟨fun _ => rfl, List.forall_mem_nil _⟩

theorem eventIgnoresStatus_powerStages (l : PinLevel) {wait : State → Nat} (hw : ∀ s, wait (forgetStatus s) = wait s)
    (x : SleepState) : ∀ g ∈ powerStages l wait x, EventIgnoresStatus g :=
  List.forall_mem_cons.2 ⟨fun _ => rfl, List.forall_mem_singleton.2 fun s => congrArg Event.delay (hw s)⟩

theorem eventIgnoresStatus_stages {o : BitVec 4} {p : Program} (h : programOf o = some p) (s : State) :
    ∀ g ∈ p.stages s, EventIgnoresStatus g := by
  cases o, p, h using programOf_elim with
  | readReg | writeReg => exact List.forall_mem_singleton.2 fun _ => rfl
  | modifyReg | clearFault => exact List.forall_mem_cons.2 ⟨fun _ => rfl, List.forall_mem_singleton.2 fun _ => rfl⟩
  | readConfig => exact eventIgnoresStatus_readPhase _ _
  | writeConfig => exact eventIgnoresStatus_writePhase _
  | modifyConfig =>
    exact List.forall_mem_append.2 ⟨eventIgnoresStatus_readPhase _ _, eventIgnoresStatus_writePhase _⟩
  | awaken =>
    simp only [awakenProgram]
    split
    · exact List.forall_mem_nil _
    · exact eventIgnoresStatus_powerStages _ (fun _ => rfl) _
  | sleep =>
    simp only [sleepProgram]
    split
    · exact List.forall_mem_nil _
    · exact eventIgnoresStatus_powerStages _ (fun _ => rfl) _

theorem StatusTwin.Replies.afterAnswer {A B : Answer} (h : Replies A B) {g : Stage} {gs : List Stage}
    (hd : ∀ u v, StatusTwin u v → StatusTwin (g.done u) (g.done v))
    (hr : ∀ u v, StatusTwin u v → StatusTwin (runStages gs u) (runStages gs v)) :
    StatusTwin (afterAnswer g gs A) (afterAnswer g gs B) := by
  cases h with
  | waiting ht => exact ht
  | failed e wrote ht => exact ht.complete e wrote
  | answered ht => exact hr _ _ (hd _ _ ht)

theorem StatusTwin.runStages {u v : State} {gs : List Stage} (h : StatusTwin u v) (he : ∀ g ∈ gs, EventIgnoresStatus g)
    (hd : ∀ g ∈ gs, ∀ u v, StatusTwin u v → StatusTwin (g.done u) (g.done v)) :
    StatusTwin (runStages gs u) (runStages gs v) := by
  induction gs generalizing u v with
  | nil => exact h.complete .ok false
  | cons g gs ih =>
    rw [List.forall_mem_cons] at he hd
    have hv : g.event v = g.event u := h.view he.1
    rw [runStages_cons, runStages_cons, hv]
    exact ((h.issue (g.event u)).awaitAnswer (g.event u)).afterAnswer hd.1 fun _ _ h => ih h he.2 hd.2

/-- A request from twins ends in twins. -/
theorem StatusTwin.acceptRequest {u v : State} (h : StatusTwin u v) (hs : u.phase = .idle) {r : Request} {p : Program}
    (hp : validate r.header = none → programOf (headerOpc r.header) = some p) :
    StatusTwin (acceptRequest r p u) (acceptRequest r p v) := by
  have hsv : v.phase = .idle := (h.view fun _ => rfl).trans hs
  cases hval : validate r.header with
  | some sub =>
    rw [acceptRequest_refused p hs hval, acceptRequest_refused p hsv hval]
    exact h.map (fun _ => rfl) (fun _ => rfl) fun _ => rfl
  | none =>
    have hl : StatusTwin (latch r u) (latch r v) := h.map (fun _ => rfl) (fun _ => rfl) fun _ => rfl
    have hst : p.stages (latch r v) = p.stages (latch r u) :=
      stages_ext (hp hval) (hl.view fun _ => rfl) (hl.view fun _ => rfl)
    rw [acceptRequest_valid p hs hval, acceptRequest_valid p hsv hval, hst]
    exact (stageCongr.start (hp hval) hl).runStages (eventIgnoresStatus_stages (hp hval) _) (stageCongr.stages (hp hval) _)

/-- Settles O50: the two runs end in status twins. -/
theorem reportedFaultsAreData : Obligations.ReportedFaultsAreData := by
  intro i s t answers hi hs ha hx
  obtain ⟨r, p, hr⟩ := exists_acceptedAs hi s
  obtain rfl : acceptRequest r p s = t := by simpa [hr.exec_eq] using hx
  have h : StatusTwin s { s with transport := answers } := ⟨rfl, fun _ _ => rfl, ha⟩
  have ht := h.acceptRequest hs (r := r) (p := p) fun hv => hr.opc ▸ hr.program hv
  exact ⟨_, hr.exec_of _ rfl rfl, ht.rest, ht.answers⟩

end Sys2Proof.Machine
end

section
/-!
Register requests on given answers. `Course` holds what a register request has done so far, and `Course.state s` is the
state then, the request having been taken up at s. One rule for each way an exchange ends takes a run from one course to
the next; the requests' next states are read off the courses they end in.
-/

namespace Sys2Proof.Machine

/-! ### The write flag of an exchange (R101, R334) -/

theorem hasWriteFrame_frameRead (a : Nat) : hasWriteFrame (frameRead a) = false := by
  have key : ∀ n : Fin 32, (cmdRead n).getLsbD 6 = true := by decide
  have ha : (cmdRead a).getLsbD 6 = true := by
    rw [cmdRead_mask]
    exact key ⟨a % 32, Nat.mod_lt _ (by decide)⟩
  simp only [frameRead, hasWriteFrame, ha, Bool.not_true, Bool.or_false]

theorem hasWriteFrame_frameWrite (a : Nat) (v : Byte) : hasWriteFrame (frameWrite a v) = true := by
  have key : ∀ n : Fin 32, (cmdWrite n).getLsbD 6 = false := by decide
  have ha : (cmdWrite a).getLsbD 6 = false := by
    rw [cmdWrite_mask]
    exact key ⟨a % 32, Nat.mod_lt _ (by decide)⟩
  simp only [frameWrite, hasWriteFrame, ha, Bool.not_false, Bool.true_or]

/-! ### The course of a register request -/

/-- A register request between two of its exchanges: its latch, the value fields of the result, the status bytes received,
the exchanges answered, the buffers, and the answers left. -/
structure Course where
  req : ReqLatch
  bundle : Vector Byte 4
  value : Byte := 0#8
  wvalue : Byte := 0#8
  cfg : Cfg := 0#32
  wcfg : Cfg := 0#32
  statuses : List Byte := []
  sent : List (List Byte) := []
  tx : Bytes8
  rx : Bytes8
  transport : List BusReply

/-! The fields of the cleared record (R26). -/

@[simp] theorem cleared_value : Result.cleared.value = 0#8 := rfl
@[simp] theorem cleared_wvalue : Result.cleared.wvalue = 0#8 := rfl
@[simp] theorem cleared_cfg : Result.cleared.cfg = 0#32 := rfl
@[simp] theorem cleared_wcfg : Result.cleared.wcfg = 0#32 := rfl
@[simp] theorem cleared_xidx : Result.cleared.xidx = 0#4 := rfl
@[simp] theorem cleared_nexch : Result.cleared.nexch = 0#4 := rfl
@[simp] theorem cleared_nframes : Result.cleared.nframes = 0#4 := rfl
@[simp] theorem cleared_fault : Result.cleared.fault = none := rfl
@[simp] theorem cleared_dsu : Result.cleared.dsu = false := rfl

namespace Course

/-- The result record then. -/
def res (c : Course) : Result :=
  { Result.cleared with
    value := c.value, wvalue := c.wvalue, cfg := c.cfg, wcfg := c.wcfg, st := statusSlots c.statuses
    nexch := BitVec.ofNat 4 c.sent.length, nframes := BitVec.ofNat 4 c.statuses.length }

/-- The state then, the request having been taken up at s. -/
def state (c : Course) (s : State) : State :=
  { s with
    phase := .busy, k := BitVec.ofNat 4 c.sent.length, outstanding := none, req := c.req, tx := c.tx, rx := c.rx
    bundle := c.bundle, res := c.res, asleepAccess := s.asleepAccess || (!c.sent.isEmpty && accessWhileAsleep s)
    history := s.history ++ c.sent.map .exchange, offers := s.offers.tail, transport := c.transport }

/-- An accepted request before its first exchange. -/
@[simp] def start (q : ReqLatch) (s : State) : Course where
  req := q
  bundle := s.bundle
  tx := s.tx
  rx := s.rx
  transport := s.transport

/-- After one more exchange, answered with x. -/
def answered (c : Course) (bytes : List Byte) (x : Bytes8) (rest : List BusReply) : Course :=
  { c with
    statuses := c.statuses ++ statusBytes bytes.length x, sent := c.sent ++ [bytes], tx := loadTx bytes c.tx
    rx := loadRx bytes.length x c.rx, transport := rest }

/-- The end of a request whose exchanges, at least one, were all answered. -/
@[simp] def ended (c : Course) (s : State) : State :=
  { s with
    phase := .idle, k := BitVec.ofNat 4 c.sent.length, outstanding := none, req := c.req, tx := c.tx, rx := c.rx
    bundle := c.bundle, res := { c.res with fault := firstFault (c.statuses.map some) }
    asleepAccess := markAfterExchange s, history := s.history ++ c.sent.map .exchange, offers := s.offers.tail
    transport := c.transport }

/-- The end of a request whose next exchange fails. -/
@[simp] def failed (c : Course) (bytes : List Byte) (wrote : Bool) (rest : List BusReply) (s : State) : State :=
  { s with
    phase := .idle, k := BitVec.ofNat 4 (c.sent.length + 1), outstanding := none, req := c.req, tx := loadTx bytes c.tx
    rx := c.rx, bundle := c.bundle
    res := { c.res with
      err := .transport, xidx := BitVec.ofNat 4 c.sent.length, fault := firstFault (c.statuses.map some), dsu := wrote }
    asleepAccess := markAfterExchange s, history := s.history ++ (c.sent ++ [bytes]).map .exchange
    offers := s.offers.tail, transport := rest }

theorem latch_eq (r : Request) (s : State) : latch r s = (start (latchOf r) s).state s := by
  simp [latch, takeOffer, state, start]
  rfl

/-! What follows an exchange, on courses. -/

theorem setValue_state (v : Byte) (c : Course) (s : State) : setValue v (c.state s) = { c with value := v }.state s := rfl
theorem setWvalue_state (v : Byte) (c : Course) (s : State) :
    setWvalue v (c.state s) = { c with wvalue := v }.state s := rfl

variable {c : Course} {s : State} {bytes : List Byte} {x : Bytes8} {rest : List BusReply}

theorem issue_state (bytes : List Byte) :
    issue (.exchange bytes) (c.state s) = { c.state s with
      k := BitVec.ofNat 4 (c.sent.length + 1), outstanding := some (.exchange bytes), tx := loadTx bytes c.tx
      asleepAccess := markAfterExchange s, history := s.history ++ (c.sent ++ [bytes]).map .exchange } := by
  have hm : (s.asleepAccess || (!c.sent.isEmpty && accessWhileAsleep s) || accessWhileAsleep s)
      = markAfterExchange s := by
    rw [markAfterExchange, ← accessWhileAsleep]
    cases s.asleepAccess <;> cases accessWhileAsleep s <;> simp
  have ha : accessWhileAsleep (c.state s) = accessWhileAsleep s := rfl
  simp only [issue, ha]
  simp [state, hm, BitVec.ofNat_add]

theorem answered_state (hb : c.statuses.length + bytes.length / 2 ≤ 8) :
    recordExchange bytes.length x { issue (.exchange bytes) (c.state s) with transport := rest }
      = (c.answered bytes x rest).state s := by
  have hl : (statusBytes bytes.length x).length = bytes.length / 2 := by simp [statusBytes]
  have hr := recordStatuses_slots (statusBytes bytes.length x) c.statuses { c.res with nexch := c.res.nexch + 1#4 } rfl rfl
    (by rw [hl]; exact hb)
  have hres : recordStatuses (statusBytes bytes.length x) { c.res with nexch := c.res.nexch + 1#4 }
      = (c.answered bytes x rest).res := by
    rw [hr]
    simp [res, answered, BitVec.ofNat_add]
  have hm : markAfterExchange s
      = (s.asleepAccess || (!(c.answered bytes x rest).sent.isEmpty && accessWhileAsleep s)) := by
    have he : (c.sent ++ [bytes]).isEmpty = false := by cases c.sent <;> rfl
    simp only [answered, he, Bool.not_false, Bool.true_and]
    rfl
  rw [issue_state, recordExchange, hm]
  simp only [state, hres]
  simp [answered]

theorem failed_state (hb : c.statuses.length ≤ 8) :
    complete .transport (hasWriteFrame bytes)
      (recordFailedExchange { issue (.exchange bytes) (c.state s) with transport := rest })
      = c.failed bytes (hasWriteFrame bytes) rest s := by
  have hf := aggregate_statusSlots c.statuses hb
  rw [issue_state]
  simp only [complete, recordFailedExchange, failed, state, res, hf]
  rfl

/-! ### One rule for each way an exchange ends -/

theorem runStages_nil (hn : c.sent ≠ []) (hb : c.statuses.length ≤ 8) : runStages [] (c.state s) = c.ended s := by
  have hf := aggregate_statusSlots c.statuses hb
  have hm : (s.asleepAccess || (!c.sent.isEmpty && accessWhileAsleep s)) = markAfterExchange s := by
    rw [List.isEmpty_eq_false_iff.2 hn]
    rfl
  simp only [Machine.runStages_nil, complete, state, res, ended, hf, hm]
  rfl

theorem runStages_ok {g : Stage} (gs : List Stage) (he : g.event (c.state s) = .exchange bytes)
    (ht : c.transport = .ok x :: rest) (hb : c.statuses.length + bytes.length / 2 ≤ 8) :
    runStages (g :: gs) (c.state s) = runStages gs (g.done ((c.answered bytes x rest).state s)) := by
  rw [runStages_exchange_ok he ht, answered_state hb]

theorem runStages_err {g : Stage} {gs : List Stage} {wrote : Bool} (he : g.event (c.state s) = .exchange bytes)
    (ht : c.transport = .err :: rest) (hb : c.statuses.length ≤ 8) (hw : hasWriteFrame bytes = wrote) :
    runStages (g :: gs) (c.state s) = c.failed bytes wrote rest s := by
  rw [runStages_exchange_err he ht, failed_state hb, hw]

/-- After one more exchange of one frame, answered with x. -/
@[simp] def frame (c : Course) (f : List Byte) (x : Bytes8) (rest : List BusReply) : Course :=
  { c with
    statuses := c.statuses ++ [x[0]], sent := c.sent ++ [f], tx := loadTx f c.tx, rx := loadRx 2 x c.rx
    transport := rest }

theorem answered_frame {f : List Byte} (h : f.length = 2) : c.answered f x rest = c.frame f x rest := by
  simp only [answered, frame, h, statusBytes_two]

theorem runStages_xread {addr : State → Nat} {keep : Byte → State → State} {gs : List Stage} {a : Nat}
    (ha : addr (c.state s) = a) (ht : c.transport = .ok x :: rest) (hb : c.statuses.length < 8) :
    runStages (xread addr keep :: gs) (c.state s) = runStages gs (keep x[1] ((c.frame (frameRead a) x rest).state s)) := by
  have hx : byteAt (c.frame (frameRead a) x rest).rx 1 = x[1] := byteAt_loadRx _ _ _ (by decide) (by decide)
  rw [runStages_ok gs rfl ht (by simpa [frameRead] using hb), ha, answered_frame rfl, ← hx]
  rfl

theorem runStages_xwrite {addr : State → Nat} {v : State → Byte} {gs : List Stage} {a : Nat} {b : Byte}
    (ha : addr (c.state s) = a) (hv : v (c.state s) = b) (ht : c.transport = .ok x :: rest) (hb : c.statuses.length < 8) :
    runStages (xwrite addr v :: gs) (c.state s) = runStages gs ((c.frame (frameWrite a b) x rest).state s) := by
  rw [runStages_ok gs rfl ht (by simpa [frameWrite] using hb), ha, hv, answered_frame rfl]
  rfl

theorem runStages_xread_err {addr : State → Nat} {keep : Byte → State → State} {gs : List Stage} {a : Nat}
    (ha : addr (c.state s) = a) (ht : c.transport = .err :: rest) (hb : c.statuses.length ≤ 8) :
    runStages (xread addr keep :: gs) (c.state s) = c.failed (frameRead a) false rest s :=
  runStages_err (g := xread addr keep) (by rw [← ha]; rfl) ht hb (hasWriteFrame_frameRead a)

theorem runStages_xwrite_err {addr : State → Nat} {v : State → Byte} {gs : List Stage} {a : Nat} {b : Byte}
    (ha : addr (c.state s) = a) (hv : v (c.state s) = b) (ht : c.transport = .err :: rest) (hb : c.statuses.length ≤ 8) :
    runStages (xwrite addr v :: gs) (c.state s) = c.failed (frameWrite a b) true rest s :=
  runStages_err (g := xwrite addr v) (by rw [← ha, ← hv]; rfl) ht hb (hasWriteFrame_frameWrite a b)

end Course

/-! ### Acceptance -/

theorem acceptRequest_course {r : Request} (p : Program) {s : State} (hs : s.phase = .idle)
    (hv : validate r.header = none) {q : ReqLatch} (hq : latchOf r = q) :
    acceptRequest r p s = runStages (p.stages ((Course.start q s).state s)) (p.start ((Course.start q s).state s)) := by
  rw [acceptRequest_valid p hs hv, Course.latch_eq, hq]

theorem exec_expand (i : Instr) (s : State) : exec i s = exec (expand s.params i) s :=
  pseudoInstructionsDoWhatTheyStandFor i s

/-! ### READ_REG (R225) -/

theorem SpellsReadReg.expand_eq {a : Addr} {i : Instr} (h : SpellsReadReg a i) (p : Params) : expand p i = .readReg a := by
  rcases h with rfl | ⟨rfl, rfl⟩ | ⟨rfl, rfl⟩ | ⟨rfl, rfl⟩ | ⟨rfl, rfl⟩ | ⟨rfl, rfl⟩ | ⟨rfl, rfl⟩ <;> rfl

theorem validate_readReg_range : ∀ a : Addr, 5 < a.toNat → validate (headerWith 0x1000#16 a) = some .addrRange := by
  decide

theorem latchOf_readReg (a : Addr) (r : Request) :
    latchOf (recordBare (headerWith 0x1000#16 a) r) = latchFrom r 0x1#4 a := by
  simp only [latchOf, recordBare, headerOpc_readReg, headerAddr_readReg, latchFrom]

section
variable {a : Addr} {s : State} (hs : s.phase = .idle)
include hs

theorem readRegister_misused (ha : 5 < a.toNat) : readRegister a s = misused .addrRange s :=
  acceptRequest_refused (r := recordBare (headerWith 0x1000#16 a) (offered s)) _ hs (validate_readReg_range a ha)

theorem readRegister_course (ha : a.toNat ≤ 5) :
    readRegister a s = runStages [xread (fun s => s.req.addr.toNat) setValue]
      ((Course.start (latchFrom (offered s) 0x1#4 a) s).state s) :=
  acceptRequest_course (r := recordBare (headerWith 0x1000#16 a) (offered s)) _ hs (validate_readReg a ha)
    (latchOf_readReg a _)

end

/-- Settles O16: the one exchange of READ_REG, answered or failed. -/
theorem readRegReadsOneRegister : Obligations.ReadRegReadsOneRegister := by
  intro a i s hi hs
  have hx : exec i s = .next (readRegister a s) := by rw [exec_expand, hi.expand_eq]; rfl
  refine ⟨fun p => by rw [← encode_expand, hi.expand_eq]; rfl, fun ha => ?_, fun rx rest ha ht => ?_, fun rest ha ht => ?_⟩
  · rw [hx, readRegister_misused hs ha]
  · rw [hx, readRegister_course hs ha, Course.runStages_xread (a := a.toNat) (by rfl) ht (by simp),
      Course.setValue_state, Course.runStages_nil (by simp) (by simp)]
    simp [Course.res, frameRead, Config.dummyByte]
  · rw [hx, readRegister_course hs ha, Course.runStages_xread_err (a := a.toNat) (by rfl) ht (by simp)]
    simp [Course.res, cleared_st, frameRead, Config.dummyByte]

/-! ### WRITE_REG (R226) -/

theorem SpellsWriteReg.expand_eq {a : Addr} {d : Byte} {i : Instr} (h : SpellsWriteReg a d i) (p : Params) :
    expand p i = .writeReg a d := by
  rcases h with rfl | ⟨rfl, rfl⟩ | ⟨rfl, rfl⟩ | ⟨rfl, rfl⟩ | ⟨rfl, rfl⟩ <;> rfl

theorem validate_writeReg_range : ∀ a : Addr, 5 < a.toNat → validate (headerWith 0x2000#16 a) = some .addrRange := by
  decide
theorem validate_writeReg_readOnly : ∀ a : Addr, a.toNat ≤ 1 → validate (headerWith 0x2000#16 a) = some .readOnly := by
  decide

theorem latchOf_writeReg (a : Addr) (d : Byte) (r : Request) :
    latchOf (recordData (headerWith 0x2000#16 a) d r) = { latchFrom r 0x2#4 a with data := d } := by
  simp only [latchOf, recordData, headerOpc_writeReg, headerAddr_writeReg, latchFrom]

section
variable {a : Addr} {s : State} (d : Byte) (hs : s.phase = .idle)
include hs

theorem writeRegister_misused {sub : MisuseSub} (h : validate (headerWith 0x2000#16 a) = some sub) :
    writeRegister a d s = misused sub s :=
  acceptRequest_refused (r := recordData (headerWith 0x2000#16 a) d (offered s)) _ hs h

theorem writeRegister_course (h2 : 2 ≤ a.toNat) (h5 : a.toNat ≤ 5) :
    writeRegister a d s = runStages [xwrite (fun s => s.req.addr.toNat) (fun s => s.req.data)]
      ({ Course.start { latchFrom (offered s) 0x2#4 a with data := d } s with wvalue := d }.state s) :=
  acceptRequest_course (r := recordData (headerWith 0x2000#16 a) d (offered s)) _ hs (validate_writeReg a h2 h5)
    (latchOf_writeReg a d _)

end

/-- Settles O17: the one exchange of WRITE_REG, answered or failed. -/
theorem writeRegWritesOneRegister : Obligations.WriteRegWritesOneRegister := by
  intro a d i s hi hs
  have hx : exec i s = .next (writeRegister a d s) := by rw [exec_expand, hi.expand_eq]; rfl
  refine ⟨fun p => by rw [← encode_expand, hi.expand_eq]; rfl, fun ha => ?_, fun ha => ?_, fun rx rest h2 h5 ht => ?_,
    fun rest h2 h5 ht => ?_⟩
  · rw [hx, writeRegister_misused d hs (validate_writeReg_range a ha)]
  · rw [hx, writeRegister_misused d hs (validate_writeReg_readOnly a ha)]
  · rw [hx, writeRegister_course d hs h2 h5, Course.runStages_xwrite (a := a.toNat) (b := d) (by rfl) (by rfl) ht (by simp),
      Course.runStages_nil (by simp) (by simp)]
    simp [Course.res, frameWrite]
  · rw [hx, writeRegister_course d hs h2 h5,
      Course.runStages_xwrite_err (a := a.toNat) (b := d) (by rfl) (by rfl) ht (by simp)]
    simp [Course.res, cleared_st, frameWrite]

end Sys2Proof.Machine
end

section
/-!
Read-modify-write of one register: MODIFY_REG (R270) and CLEAR_FAULT (R280) have the same two stages but for the register
and the transformation.
-/

namespace Sys2Proof.Machine

/-- Read a register, transform its byte, write it back. -/
def writeBackStages (addr : State → Nat) (fn : State → Byte → Byte) : List Stage :=
  [xread addr (fun v s => setWvalue (fn s v) (setValue v s)), xwrite addr (fun s => s.res.wvalue)]

section
variable {addr : State → Nat} {fn : State → Byte → Byte} {s : State} {q : ReqLatch} {a : Nat} {f : Byte → Byte}
  {r0 r1 : Bytes8} {rest : List BusReply}
  (ha : ∀ c : Course, c.req = q → addr (c.state s) = a) (hf : ∀ (c : Course) v, c.req = q → fn (c.state s) v = f v)
include ha hf

/-- The read, answered; what follows reads the register's byte from the course. -/
theorem runStages_writeBack_read {more : List BusReply} (ht : s.transport = .ok r0 :: more) :
    runStages (writeBackStages addr fn) ((Course.start q s).state s)
      = runStages [xwrite addr (fun s => s.res.wvalue)]
          ({ (Course.start q s).frame (frameRead a) r0 more with value := r0[1], wvalue := f r0[1] }.state s) := by
  rw [writeBackStages, Course.runStages_xread (ha _ rfl) ht (by simp), Course.setValue_state, Course.setWvalue_state,
    ← hf ((Course.start q s).frame (frameRead a) r0 more) r0[1] rfl]

theorem runStages_writeBack (ht : s.transport = .ok r0 :: .ok r1 :: rest) :
    runStages (writeBackStages addr fn) ((Course.start q s).state s)
      = ({ (Course.start q s).frame (frameRead a) r0 (.ok r1 :: rest) with value := r0[1], wvalue := f r0[1] }.frame
          (frameWrite a (f r0[1])) r1 rest).ended s := by
  rw [runStages_writeBack_read ha hf ht, Course.runStages_xwrite (b := f r0[1]) (ha _ rfl) rfl rfl (by simp),
    Course.runStages_nil (by simp) (by simp)]

omit hf in
theorem runStages_writeBack_readErr (ht : s.transport = .err :: rest) :
    runStages (writeBackStages addr fn) ((Course.start q s).state s)
      = (Course.start q s).failed (frameRead a) false rest s :=
  Course.runStages_xread_err (ha _ rfl) ht (by simp)

theorem runStages_writeBack_writeErr (ht : s.transport = .ok r0 :: .err :: rest) :
    runStages (writeBackStages addr fn) ((Course.start q s).state s)
      = { (Course.start q s).frame (frameRead a) r0 (.err :: rest) with value := r0[1], wvalue := f r0[1] }.failed
          (frameWrite a (f r0[1])) true rest s := by
  rw [runStages_writeBack_read ha hf ht, Course.runStages_xwrite_err (b := f r0[1]) (ha _ rfl) rfl rfl (by simp)]

end

/-! ### MODIFY_REG (R270, R271) -/

theorem SpellsModifyReg.expand_eq {a : Addr} {f : Transform 8} {i : Instr} (h : SpellsModifyReg a f i) (p : Params) :
    expand p i = .modifyReg a f := by
  rcases h with rfl | ⟨m, d, rfl, ⟨rfl, rfl⟩ | ⟨rfl, rfl⟩ | ⟨rfl, rfl⟩ | ⟨rfl, rfl⟩⟩ | ⟨m, rfl, rfl⟩ | ⟨m, rfl, rfl⟩ <;> rfl

theorem encode_modifyReg (p : Params) (a : Addr) (f : Transform 8) :
    ∃ q, encode p (.modifyReg a f) = .req q ∧ q.header = 0x3000#16 ||| a.setWidth 16 ∧ reqRegTransform q = f := by
  cases f <;> exact ⟨_, rfl, rfl, rfl⟩

theorem validate_modifyReg_range : ∀ a : Addr, 5 < a.toNat → validate (headerWith 0x3000#16 a) = some .addrRange := by
  decide
theorem validate_modifyReg_readOnly : ∀ a : Addr, a.toNat ≤ 1 → validate (headerWith 0x3000#16 a) = some .readOnly := by
  decide

theorem latchOf_modifyReg (a : Addr) (f : Transform 8) (r : Request) :
    latchOf (recordRegFn (headerWith 0x3000#16 a) f r) = latchRegTransform f (latchFrom r 0x3#4 a) := by
  cases f <;> simp only [latchOf, recordRegFn, headerOpc_modifyReg, headerAddr_modifyReg, latchFrom, latchRegTransform]

theorem addr_latchRegTransform (f : Transform 8) (q : ReqLatch) : (latchRegTransform f q).addr = q.addr := by
  cases f <;> rfl

theorem latchRegFn_latchRegTransform (f : Transform 8) (q : ReqLatch) (v : Byte) :
    latchRegFn (latchRegTransform f q) v = applyTransform f v := by
  cases f <;> rfl

section
variable {a : Addr} {s : State} (f : Transform 8) (hs : s.phase = .idle)
include hs

theorem modifyRegister_misused {sub : MisuseSub} (h : validate (headerWith 0x3000#16 a) = some sub) :
    modifyRegister a f s = misused sub s :=
  acceptRequest_refused (r := recordRegFn (headerWith 0x3000#16 a) f (offered s)) _ hs (by rw [header_recordRegFn, h])

theorem modifyRegister_course (h2 : 2 ≤ a.toNat) (h5 : a.toNat ≤ 5) :
    modifyRegister a f s = runStages (writeBackStages (fun s => s.req.addr.toNat) (fun s => latchRegFn s.req))
      ((Course.start (latchRegTransform f (latchFrom (offered s) 0x3#4 a)) s).state s) :=
  acceptRequest_course (r := recordRegFn (headerWith 0x3000#16 a) f (offered s)) _ hs
    (by rw [header_recordRegFn, validate_modifyReg a h2 h5]) (latchOf_modifyReg a f _)

end

/-- Settles O18: the read and the write of MODIFY_REG, each answered or failed. -/
theorem modifyRegReadsTransformsAndWritesBack : Obligations.ModifyRegReadsTransformsAndWritesBack := by
  intro a f i s hi hs
  have hx : exec i s = .next (modifyRegister a f s) := by rw [exec_expand, hi.expand_eq]; rfl
  have ha : ∀ c : Course, c.req = latchRegTransform f (latchFrom (offered s) 0x3#4 a) →
      (c.state s).req.addr.toNat = a.toNat := fun c hc => by
    rw [show (c.state s).req = c.req from rfl, hc, addr_latchRegTransform]
    rfl
  have hf : ∀ (c : Course) v, c.req = latchRegTransform f (latchFrom (offered s) 0x3#4 a) →
      latchRegFn (c.state s).req v = applyTransform f v := fun c v hc => by
    rw [show (c.state s).req = c.req from rfl, hc, latchRegFn_latchRegTransform]
  refine ⟨fun p => by rw [← encode_expand, hi.expand_eq]; exact encode_modifyReg p a f, fun h => ?_, fun h => ?_,
    fun r0 r1 rest h2 h5 ht => ?_, fun rest h2 h5 ht => ?_, fun r0 rest h2 h5 ht => ?_⟩
  · rw [hx, modifyRegister_misused f hs (validate_modifyReg_range a h)]
  · rw [hx, modifyRegister_misused f hs (validate_modifyReg_readOnly a h)]
  · rw [hx, modifyRegister_course f hs h2 h5, runStages_writeBack ha hf ht]
    simp [Course.res, frameRead, frameWrite, Config.dummyByte, loadTx_loadTx]
  · rw [hx, modifyRegister_course f hs h2 h5, runStages_writeBack_readErr ha ht]
    simp [Course.res, cleared_st, frameRead, Config.dummyByte]
  · rw [hx, modifyRegister_course f hs h2 h5, runStages_writeBack_writeErr ha hf ht]
    simp [Course.res, frameRead, frameWrite, Config.dummyByte, loadTx_loadTx]

/-! ### CLEAR_FAULT (R280) -/

/-- A record with the operation code of a request without address, and an address, is refused (R333). -/
theorem refusesAddress {o : BitVec 4} {s : State} (hs : s.phase = .idle) (h4 : 4 ≤ o.toNat) (h9 : o.toNat ≤ 9) :
    RefusesAddress o s := by
  rintro r more ho rfl hr ha
  exact invalidHeadersAreRefusedBeforeAnyEvent s r more _ hs ho (validate_addr_ne h4 h9 hr ha)

theorem latchOf_recordBare {h : Header} {o : BitVec 4} (ho : headerOpc h = o) (ha : headerAddr h = 0x00#5) (r : Request) :
    latchOf (recordBare h r) = latchFrom r o 0x00#5 := by
  rw [← ho, ← ha]
  rfl

/-- Settles O19: the same two stages on IC3. -/
theorem clearFaultSetsTheClearFaultBit : Obligations.ClearFaultSetsTheClearFaultBit := by
  intro s hs
  have hx : exec .clearFault s = .next (runStages
      (writeBackStages (fun _ => 0x04) (fun s v => v ||| clearFaultMask s.params))
      ((Course.start (latchFrom (offered s) 0x7#4 0x00#5) s).state s)) :=
    congrArg Host.Outcome.next
      (acceptRequest_course (r := recordBare 0x7000#16 (offered s)) clearFaultProgram hs validate_clearFault
        (latchOf_recordBare (by decide) (by decide) _))
  have hr : frameRead 0x04 = [0x48#8, 0x00#8] := by decide
  have hw (v : Byte) : frameWrite 0x04 v = [0x08#8, v] := rfl
  have ha : ∀ c : Course, c.req = latchFrom (offered s) 0x7#4 0x00#5 → 0x04 = 0x04 := fun _ _ => rfl
  have hf : ∀ (c : Course) v, c.req = latchFrom (offered s) 0x7#4 0x00#5 →
      v ||| clearFaultMask (c.state s).params = v ||| clearFaultMask s.params := fun _ _ _ => rfl
  refine ⟨fun p => rfl, refusesAddress hs (by decide) (by decide), fun r0 r1 rest ht => ?_, fun rest ht => ?_,
    fun r0 rest ht => ?_⟩
  · rw [hx, runStages_writeBack ha hf ht]
    simp [Course.res, hr, hw, clearFaultMask, loadTx_loadTx]
  · rw [hx, runStages_writeBack_readErr ha ht]
    simp [Course.res, cleared_st, hr]
  · rw [hx, runStages_writeBack_writeErr ha hf ht]
    simp [Course.res, hr, hw, clearFaultMask, loadTx_loadTx]

end Sys2Proof.Machine
end

section
/-!
The configuration bundle (R262, R265, R276): the course of a read phase and of a write phase, in either variant, with good
answers and with an error at any of their exchanges; then the requests.
-/

namespace Sys2Proof.Machine

namespace Course

theorem setBundle_state (j : Nat) (v : Byte) (c : Course) (s : State) :
    setBundle j v (c.state s) = { c with bundle := c.bundle.setIfInBounds j v }.state s := rfl
theorem setCfg_state (v : Cfg) (c : Course) (s : State) : setCfg v (c.state s) = { c with cfg := v }.state s := rfl

/-! ### The frames of the bundle (R262, R265) -/

theorem loadTx_frameRead (a b : Nat) (tx : Bytes8) : loadTx (frameRead a) (loadTx (frameRead b) tx) = loadTx (frameRead a) tx :=
  loadTx_loadTx _ _ _ (Nat.le_refl 2)

theorem loadTx_frameWrite (a b : Nat) (v w : Byte) (tx : Bytes8) :
    loadTx (frameWrite a v) (loadTx (frameWrite b w) tx) = loadTx (frameWrite a v) tx :=
  loadTx_loadTx _ _ _ (Nat.le_refl 2)

theorem bundleReadFrames_eq : bundleReadFrames
    = [frameRead (bundleAddr 0), frameRead (bundleAddr 1), frameRead (bundleAddr 2), frameRead (bundleAddr 3)] := by
  decide

theorem bundleWriteFrames_eq (w : Cfg) : bundleWriteFrames w
    = [frameWrite (bundleAddr 0) (cfgByte w 0), frameWrite (bundleAddr 1) (cfgByte w 1),
      frameWrite (bundleAddr 2) (cfgByte w 2), frameWrite (bundleAddr 3) (cfgByte w 3)] := rfl

/-- Four bytes collected one after the other. -/
theorem setIfInBounds_four (b : Vector Byte 4) (x0 x1 x2 x3 : Byte) :
    (((b.setIfInBounds 0 x0).setIfInBounds 1 x1).setIfInBounds 2 x2).setIfInBounds 3 x3 = #v[x0, x1, x2, x3] := by
  ext i hi
  match i, hi with
  | 0, _ | 1, _ | 2, _ | 3, _ => simp

/-! ### Discrete phases -/

/-- After a discrete phase of four exchanges of 2 bytes, of which the last sends `last`. -/
@[simp] def discrete (c : Course) (fs : List (List Byte)) (last : List Byte) (r0 r1 r2 r3 : Bytes8)
    (rest : List BusReply) : Course :=
  { c with
    statuses := c.statuses ++ [r0[0], r1[0], r2[0], r3[0]], sent := c.sent ++ fs, tx := loadTx last c.tx
    rx := loadRx 2 r3 c.rx, transport := rest }

/-- After a discrete read phase. -/
@[simp] def discreteRead (c : Course) (r0 r1 r2 r3 : Bytes8) (rest : List BusReply) : Course :=
  { c.discrete bundleReadFrames (frameRead (bundleAddr 3)) r0 r1 r2 r3 rest with bundle := #v[r0[1], r1[1], r2[1], r3[1]] }

variable {c : Course} {s : State} {r0 r1 r2 r3 : Bytes8} {rest : List BusReply}

theorem runStages_readPhase_discrete {keep : Cfg → State → State} (gs : List Stage) (hb : c.statuses.length ≤ 4)
    (ht : c.transport = .ok r0 :: .ok r1 :: .ok r2 :: .ok r3 :: rest) :
    runStages (readPhase false keep ++ gs) (c.state s)
      = runStages gs (keep (configPack r0[1] r1[1] r2[1] r3[1]) ((c.discreteRead r0 r1 r2 r3 rest).state s)) := by
  have last (d : Course) (hd : d = c.discreteRead r0 r1 r2 r3 rest) : keep (packBundle (d.state s)) (d.state s)
      = keep (configPack r0[1] r1[1] r2[1] r3[1]) ((c.discreteRead r0 r1 r2 r3 rest).state s) := by
    subst hd
    rfl
  simp only [readPhase, Bool.false_eq_true, if_false, List.cons_append, List.nil_append]
  rw [runStages_xread rfl ht (by omega), setBundle_state, runStages_xread rfl rfl (by simp; omega), setBundle_state,
    runStages_xread rfl rfl (by simp; omega), setBundle_state, runStages_xread rfl rfl (by simp; omega), setBundle_state,
    last]
  simp [loadTx_frameRead, bundleReadFrames_eq, setIfInBounds_four]

theorem runStages_writePhase_discrete (gs : List Stage) (hb : c.statuses.length ≤ 4)
    (ht : c.transport = .ok r0 :: .ok r1 :: .ok r2 :: .ok r3 :: rest) :
    runStages (writePhase false ++ gs) (c.state s)
      = runStages gs ((c.discrete (bundleWriteFrames c.wcfg) (frameWrite (bundleAddr 3) (cfgByte c.wcfg 3)) r0 r1 r2 r3
          rest).state s) := by
  simp only [writePhase, Bool.false_eq_true, if_false, List.cons_append, List.nil_append]
  rw [runStages_xwrite (b := cfgByte c.wcfg 0) rfl rfl ht (by omega),
    runStages_xwrite (b := cfgByte c.wcfg 1) rfl rfl rfl (by simp; omega),
    runStages_xwrite (b := cfgByte c.wcfg 2) rfl rfl rfl (by simp; omega),
    runStages_xwrite (b := cfgByte c.wcfg 3) rfl rfl rfl (by simp; omega)]
  simp [loadTx_frameWrite, bundleWriteFrames_eq]

/-! ### Batched phases -/

/-- After a batched phase: one exchange of 8 bytes. -/
@[simp] def batch (c : Course) (bytes : List Byte) (x : Bytes8) (rest : List BusReply) : Course :=
  { c with
    statuses := c.statuses ++ [x[0], x[2], x[4], x[6]], sent := c.sent ++ [bytes], tx := loadTx bytes c.tx
    rx := loadRx 8 x c.rx, transport := rest }

theorem answered_batch {bytes : List Byte} {x : Bytes8} (h : bytes.length = 8) :
    c.answered bytes x rest = c.batch bytes x rest := by
  simp only [answered, batch, h, statusBytes_eight]

theorem runStages_xbatch {tx8 : State → List Byte} {keep : Byte → Byte → Byte → Byte → State → State} {gs : List Stage}
    {bytes : List Byte} {x : Bytes8} (he : tx8 (c.state s) = bytes) (hl : bytes.length = 8)
    (ht : c.transport = .ok x :: rest) (hb : c.statuses.length ≤ 4) :
    runStages (xbatch tx8 keep :: gs) (c.state s)
      = runStages gs (keep x[1] x[3] x[5] x[7] ((c.batch bytes x rest).state s)) := by
  have hx {i : Nat} (h8 : i < 8) : byteAt (c.batch bytes x rest).rx i = x[i] := byteAt_loadRx _ _ _ h8 h8
  rw [runStages_ok (bytes := bytes) gs (congrArg Event.exchange he) ht (by rw [hl]; omega), answered_batch hl,
    ← hx (i := 1) (by decide), ← hx (i := 3) (by decide), ← hx (i := 5) (by decide), ← hx (i := 7) (by decide)]
  rfl

theorem runStages_readPhase_batched {keep : Cfg → State → State} {x : Bytes8} (gs : List Stage)
    (hb : c.statuses.length ≤ 4) (ht : c.transport = .ok x :: rest) :
    runStages (readPhase true keep ++ gs) (c.state s)
      = runStages gs (keep (configPack x[1] x[3] x[5] x[7]) ((c.batch bundleReadFrames.flatten x rest).state s)) :=
  runStages_xbatch (tx8 := fun _ => batchReadBytes) rfl rfl ht hb

theorem runStages_writePhase_batched {x : Bytes8} (gs : List Stage) (hb : c.statuses.length ≤ 4)
    (ht : c.transport = .ok x :: rest) :
    runStages (writePhase true ++ gs) (c.state s)
      = runStages gs ((c.batch (bundleWriteFrames c.wcfg).flatten x rest).state s) :=
  runStages_xbatch (tx8 := fun s => batchWriteBytes s.res.wcfg) rfl rfl ht hb

theorem runStages_readPhase_batchedErr {keep : Cfg → State → State} (gs : List Stage) (hb : c.statuses.length ≤ 8)
    (ht : c.transport = .err :: rest) :
    runStages (readPhase true keep ++ gs) (c.state s) = c.failed bundleReadFrames.flatten false rest s :=
  runStages_err (bytes := bundleReadFrames.flatten) rfl ht hb (by decide)

theorem runStages_writePhase_batchedErr (gs : List Stage) (hb : c.statuses.length ≤ 8) (ht : c.transport = .err :: rest) :
    runStages (writePhase true ++ gs) (c.state s) = c.failed (bundleWriteFrames c.wcfg).flatten true rest s :=
  runStages_err (bytes := (bundleWriteFrames c.wcfg).flatten) rfl ht hb rfl

/-! ### A discrete phase that fails -/

/-- While the configuration to write is w, the stage sends the frame f. -/
structure SendsFrame (s : State) (w : Cfg) (g : Stage) (f : List Byte) : Prop where
  length : f.length = 2
  event : ∀ c : Course, c.wcfg = w → g.event (c.state s) = .exchange f

/-- What follows the stage's exchange writes the bundle at most. -/
def QuietButBundle (s : State) (g : Stage) : Prop :=
  ∀ c : Course, ∃ b, g.done (c.state s) = { c with bundle := b }.state s

theorem quietButBundle_xread (addr : State → Nat) (j : Nat) : QuietButBundle s (xread addr (setBundle j)) :=
  fun c => ⟨_, setBundle_state j (byteAt c.rx 1) c s⟩

theorem quietButBundle_xwrite (addr : State → Nat) (v : State → Byte) : QuietButBundle s (xwrite addr v) :=
  fun c => ⟨c.bundle, rfl⟩

/-- From course c on, the frames of fs were sent until one failed, those before it answered with rs. -/
structure FailedAfter (c : Course) (s : State) (fs : List (List Byte)) (wrote : Bool) (rs : List Bytes8)
    (rest : List BusReply) (t : State) : Prop where
  phase : t.phase = .idle
  res : t.res = { c.res with
    err := .transport, dsu := wrote, xidx := BitVec.ofNat 4 (c.sent.length + rs.length)
    nexch := BitVec.ofNat 4 (c.sent.length + rs.length), nframes := BitVec.ofNat 4 (c.statuses.length + rs.length)
    st := statusSlots (c.statuses ++ rs.map fun r => r[0])
    fault := firstFault ((c.statuses ++ rs.map fun r => r[0]).map some) }
  history : t.history = s.history ++ (c.sent ++ fs.take (rs.length + 1)).map .exchange
  transport : t.transport = rest
  sleep : t.sleep = s.sleep
  sleepLatch : t.sleepLatch = s.sleepLatch

theorem FailedAfter.facts {fs : List (List Byte)} {wrote : Bool} {rs : List Bytes8} {t : State} {r : Result}
    {es : List Event} (h : FailedAfter c s fs wrote rs rest t)
    (hr : { c.res with
      err := .transport, dsu := wrote, xidx := BitVec.ofNat 4 (c.sent.length + rs.length)
      nexch := BitVec.ofNat 4 (c.sent.length + rs.length), nframes := BitVec.ofNat 4 (c.statuses.length + rs.length)
      st := statusSlots (c.statuses ++ rs.map fun r => r[0])
      fault := firstFault ((c.statuses ++ rs.map fun r => r[0]).map some) } = r)
    (hes : (c.sent ++ fs.take (rs.length + 1)).map .exchange = es) :
    t.phase = .idle ∧ t.res = r ∧ t.history = s.history ++ es ∧ t.transport = rest ∧ t.sleep = s.sleep
      ∧ t.sleepLatch = s.sleepLatch :=
  ⟨h.phase, h.res.trans hr, hes ▸ h.history, h.transport, h.sleep, h.sleepLatch⟩

theorem runStages_failedAfter {w : Cfg} {wrote : Bool} {gs : List Stage} {fs : List (List Byte)} {rs : List Bytes8}
    (more : List Stage) (hf : List.Forall₂ (SendsFrame s w) gs fs) (hq : ∀ g ∈ gs.dropLast, QuietButBundle s g)
    (hw : ∀ f ∈ fs, hasWriteFrame f = wrote) (hl : rs.length < fs.length) (hc : c.wcfg = w)
    (hb : c.statuses.length + rs.length ≤ 8) (ht : c.transport = rs.map .ok ++ .err :: rest) :
    FailedAfter c s fs wrote rs rest (runStages (gs ++ more) (c.state s)) := by
  induction rs generalizing gs fs c with
  | nil =>
    cases hf with
    | nil => simp at hl
    | @cons g f gs fs hgf hf =>
      rw [List.cons_append, runStages_err (hgf.event c hc) ht hb (hw f List.mem_cons_self)]
      constructor <;> simp [Course.res]
  | cons r rs ih =>
    cases hf with
    | nil => simp at hl
    | @cons g f gs fs hgf hf =>
      have hne : gs ≠ [] := by
        rintro rfl
        cases hf
        simp at hl
      rw [List.dropLast_cons_of_ne_nil hne, List.forall_mem_cons] at hq
      obtain ⟨b, hdone⟩ := hq.1 (c.frame f r (rs.map .ok ++ .err :: rest))
      rw [List.length_cons] at hb hl
      rw [List.cons_append, runStages_ok (x := r) (rest := rs.map BusReply.ok ++ .err :: rest) (gs ++ more)
          (hgf.event c hc) ht (by rw [hgf.length]; omega),
        answered_frame hgf.length, hdone]
      obtain ⟨h1, h2, h3, h4, h5, h6⟩ := ih (c := { c.frame f r (rs.map .ok ++ .err :: rest) with bundle := b }) hf hq.2
        (fun f hm => hw f (List.mem_cons_of_mem _ hm)) (by simpa using hl) hc (by simp; omega) rfl
      exact ⟨h1, h2.trans (by simp [Course.res, Nat.add_assoc, Nat.add_comm 1]), h3.trans (by simp), h4, h5, h6⟩

theorem failedAfter_readPhase {keep : Cfg → State → State} {rs : List Bytes8} (gs : List Stage) (hl : rs.length < 4)
    (hb : c.statuses.length ≤ 4) (ht : c.transport = rs.map .ok ++ .err :: rest) :
    c.FailedAfter s bundleReadFrames false rs rest (runStages (readPhase false keep ++ gs) (c.state s)) := by
  have sends : List.Forall₂ (SendsFrame s c.wcfg) (readPhase false keep) bundleReadFrames := by
    rw [bundleReadFrames_eq]
    exact .cons ⟨rfl, fun _ _ => rfl⟩ (.cons ⟨rfl, fun _ _ => rfl⟩ (.cons ⟨rfl, fun _ _ => rfl⟩
      (.cons ⟨rfl, fun _ _ => rfl⟩ .nil)))
  have quiet : ∀ g ∈ (readPhase false keep).dropLast, QuietButBundle s g :=
    List.forall_mem_cons.2 ⟨quietButBundle_xread _ 0, List.forall_mem_cons.2 ⟨quietButBundle_xread _ 1,
      List.forall_mem_singleton.2 (quietButBundle_xread _ 2)⟩⟩
  exact runStages_failedAfter gs sends quiet (by decide) hl rfl (by omega) ht

theorem failedAfter_writePhase {rs : List Bytes8} (gs : List Stage) (hl : rs.length < 4)
    (hb : c.statuses.length ≤ 4) (ht : c.transport = rs.map .ok ++ .err :: rest) :
    c.FailedAfter s (bundleWriteFrames c.wcfg) true rs rest (runStages (writePhase false ++ gs) (c.state s)) := by
  have sends : List.Forall₂ (SendsFrame s c.wcfg) (writePhase false) (bundleWriteFrames c.wcfg) := by
    have event (i : Nat) (d : Course) (hd : d.wcfg = c.wcfg) :
        Event.exchange (frameWrite (bundleAddr i) (cfgByte (d.state s).res.wcfg i))
          = .exchange (frameWrite (bundleAddr i) (cfgByte c.wcfg i)) := by rw [← hd]; rfl
    exact .cons ⟨rfl, event 0⟩ (.cons ⟨rfl, event 1⟩ (.cons ⟨rfl, event 2⟩ (.cons ⟨rfl, event 3⟩ .nil)))
  have quiet : ∀ g ∈ (writePhase false).dropLast, QuietButBundle s g :=
    List.forall_mem_cons.2 ⟨quietButBundle_xwrite _ _, List.forall_mem_cons.2 ⟨quietButBundle_xwrite _ _,
      List.forall_mem_singleton.2 (quietButBundle_xwrite _ _)⟩⟩
  have wrote : ∀ f ∈ bundleWriteFrames c.wcfg, hasWriteFrame f = true :=
    List.forall_mem_cons.2 ⟨rfl, List.forall_mem_cons.2 ⟨rfl, List.forall_mem_cons.2 ⟨rfl, List.forall_mem_singleton.2 rfl⟩⟩⟩
  exact runStages_failedAfter gs sends quiet wrote hl rfl (by omega) ht

end Course

end Sys2Proof.Machine
end

section
/-!
The bundle requests: READ_CONFIG (R262, R263), WRITE_CONFIG and WRITE_DEFAULTS (R265 to R267, R119), MODIFY_CONFIG (R276).
-/

namespace Sys2Proof.Machine

theorem frameRead_last : frameRead (bundleAddr 3) = [0x4A#8, 0x00#8] := by decide

theorem frameWrite_last (v : Byte) : frameWrite (bundleAddr 3) v = [0x0A#8, v] := rfl

/-! ### READ_CONFIG -/

/-- The one phase of READ_CONFIG. -/
theorem exec_readConfig {s : State} (hs : s.phase = .idle) {b : Bool} (hb : s.params.batched = b) :
    exec .readConfig s = .next (runStages (readPhase b setCfg ++ [])
      ((Course.start (latchFrom (offered s) 0x4#4 0x00#5) s).state s)) := by
  have hq : latchOf (recordBare 0x4000#16 (offered s)) = latchFrom (offered s) 0x4#4 0x00#5 :=
    latchOf_recordBare (by decide) (by decide) _
  have h := acceptRequest_course (r := recordBare 0x4000#16 (offered s)) readConfigProgram hs validate_readConfig hq
  rw [exec, execReadConfig, h, ← hb, List.append_nil]
  rfl

/-- Settles O20: the read phase in either variant, on good answers and with an error at any exchange. -/
theorem readConfigReadsTheBundle : Obligations.ReadConfigReadsTheBundle := by
  intro s hs
  refine ⟨fun p => rfl, refusesAddress hs (by decide) (by decide), fun r0 r1 r2 r3 rest hb ht => ?_,
    fun rx rest hb ht => ?_, fun rs rest hb hl ht => ?_, fun rest hb ht => ?_⟩
  · rw [exec_readConfig hs hb, Course.runStages_readPhase_discrete _ (by simp) ht, Course.setCfg_state,
      Course.runStages_nil (by simp [bundleReadFrames]) (by simp)]
    simp [Course.res, bundleReadFrames, frameRead_last]
  · rw [exec_readConfig hs hb, Course.runStages_readPhase_batched _ (by simp) ht, Course.setCfg_state,
      Course.runStages_nil (by simp) (by simp)]
    simp [Course.res]
  · refine ⟨_, exec_readConfig hs hb, (Course.failedAfter_readPhase [] hl ?_ ht).facts ?_ ?_⟩ <;>
      simp [Course.res, Function.comp_def]
  · rw [exec_readConfig hs hb, Course.runStages_readPhase_batchedErr _ (by simp) ht]
    simp [Course.res, cleared_st]

/-! ### WRITE_CONFIG -/

theorem SpellsWriteConfig.expand_eq {p : Params} {c : Cfg} {i : Instr} (h : SpellsWriteConfig p c i) :
    expand p i = .writeConfig c := by
  rcases h with rfl | ⟨rfl, rfl⟩ <;> rfl

/-- The one phase of WRITE_CONFIG. -/
theorem exec_writeConfig {s : State} {c : Cfg} {i : Instr} (hi : SpellsWriteConfig s.params c i) (hs : s.phase = .idle)
    {b : Bool} (hb : s.params.batched = b) :
    exec i s = .next (runStages (writePhase b ++ [])
      ({ Course.start { latchFrom (offered s) 0x5#4 0x00#5 with cfg := c } s with wcfg := c }.state s)) := by
  have hq : latchOf (recordCfg 0x5000#16 c (offered s)) = { latchFrom (offered s) 0x5#4 0x00#5 with cfg := c } :=
    congrArg (fun q : ReqLatch => { q with cfg := c })
      (latchOf_recordBare (h := 0x5000#16) (by decide) (by decide) (offered s))
  have h := acceptRequest_course (r := recordCfg 0x5000#16 c (offered s)) writeConfigProgram hs validate_writeConfig hq
  rw [exec_expand, hi.expand_eq, exec, execWriteConfig, writeBundle, h, ← hb, List.append_nil]
  rfl

/-- Settles O21: the write phase in either variant, on good answers and with an error at any exchange. -/
theorem writeConfigWritesTheBundle : Obligations.WriteConfigWritesTheBundle := by
  intro c i s hi hs
  refine ⟨by rw [← encode_expand, hi.expand_eq]; rfl, refusesAddress hs (by decide) (by decide),
    fun r0 r1 r2 r3 rest hb ht => ?_, fun rx rest hb ht => ?_, fun rs rest hb hl ht => ?_, fun rest hb ht => ?_⟩
  · rw [exec_writeConfig hi hs hb, Course.runStages_writePhase_discrete _ (by simp) ht,
      Course.runStages_nil (by simp [bundleWriteFrames]) (by simp)]
    simp [Course.res, bundleWriteFrames, frameWrite_last]
  · rw [exec_writeConfig hi hs hb, Course.runStages_writePhase_batched _ (by simp) ht,
      Course.runStages_nil (by simp) (by simp)]
    simp [Course.res]
  · refine ⟨_, exec_writeConfig hi hs hb, (Course.failedAfter_writePhase [] hl ?_ ht).facts ?_ ?_⟩ <;>
      simp [Course.res, Function.comp_def]
  · rw [exec_writeConfig hi hs hb, Course.runStages_writePhase_batchedErr _ (by simp) ht]
    simp [Course.res, cleared_st]

/-! ### MODIFY_CONFIG -/

theorem encode_modifyConfig (p : Params) (f : Transform 32) :
    ∃ q, encode p (.modifyConfig f) = .req q ∧ q.header = 0x6000#16 ∧ reqCfgTransform q = f := by
  cases f <;> exact ⟨_, rfl, rfl, rfl⟩

theorem latchOf_modifyConfig (f : Transform 32) (r : Request) :
    latchOf (recordCfgFn 0x6000#16 f r) = latchCfgTransform f (latchFrom r 0x6#4 0x00#5) := by
  rw [← latchOf_recordBare (h := 0x6000#16) (by decide) (by decide) r]
  cases f <;> rfl

theorem latchCfgFn_latchCfgTransform (f : Transform 32) (q : ReqLatch) (c : Cfg) :
    latchCfgFn (latchCfgTransform f q) c = applyTransform f c := by
  cases f <;> rfl

/-- What follows the read phase: `res.cfg`, then `res.wcfg <- f(c)`. -/
def keepTransformed (c : Cfg) (s : State) : State := setWcfg (latchCfgFn s.req c) (setCfg c s)

theorem keepTransformed_state {f : Transform 32} {q : ReqLatch} (c w : Cfg) {d : Course} (s : State)
    (hq : d.req = latchCfgTransform f q) (hw : w = applyTransform f c) :
    keepTransformed c (d.state s) = { d with cfg := c, wcfg := w }.state s := by
  have hr : latchCfgFn (d.state s).req c = w := by
    rw [show (d.state s).req = d.req from rfl, hq, latchCfgFn_latchCfgTransform, hw]
  rw [keepTransformed, hr]
  rfl

/-- The two phases of MODIFY_CONFIG. -/
theorem exec_modifyConfig {s : State} (f : Transform 32) (hs : s.phase = .idle) {b : Bool} (hb : s.params.batched = b) :
    exec (.modifyConfig f) s = .next (runStages (readPhase b keepTransformed ++ (writePhase b ++ []))
      ((Course.start (latchCfgTransform f (latchFrom (offered s) 0x6#4 0x00#5)) s).state s)) := by
  have h := acceptRequest_course (r := recordCfgFn 0x6000#16 f (offered s)) modifyConfigProgram hs
    (validate_recordCfgFn f _) (latchOf_modifyConfig f _)
  rw [exec, execModifyConfig, h, ← hb, List.append_nil]
  rfl

/-- MODIFY_CONFIG once its discrete read phase is answered. -/
theorem exec_modifyConfig_read {s : State} (f : Transform 32) (hs : s.phase = .idle) (hb : s.params.batched = false)
    {r0 r1 r2 r3 : Bytes8} {more : List BusReply} (ht : s.transport = .ok r0 :: .ok r1 :: .ok r2 :: .ok r3 :: more)
    {c w : Cfg} (hc : c = configPack r0[1] r1[1] r2[1] r3[1]) (hw : w = applyTransform f c) :
    exec (.modifyConfig f) s = .next (runStages (writePhase false ++ [])
      ({ (Course.start (latchCfgTransform f (latchFrom (offered s) 0x6#4 0x00#5)) s).discreteRead r0 r1 r2 r3 more with
        cfg := c, wcfg := w }.state s)) := by
  rw [exec_modifyConfig f hs hb, Course.runStages_readPhase_discrete _ (by simp) ht, ← hc,
    keepTransformed_state c w s rfl hw]

/-- Settles O22: the two phases in either variant, on good answers and with an error at any exchange of either. -/
theorem modifyConfigReadsTransformsAndWritesBack : Obligations.ModifyConfigReadsTransformsAndWritesBack := by
  intro f s hs
  refine ⟨fun p => encode_modifyConfig p f, refusesAddress hs (by decide) (by decide),
    fun r0 r1 r2 r3 w0 w1 w2 w3 rest c w hb ht hc hw => ?_, fun rx wx rest c w hb ht hc hw => ?_,
    fun rs rest hb hl ht => ?_, fun r0 r1 r2 r3 ws rest c w hb hl ht hc hw => ?_, fun rest hb ht => ?_,
    fun rx rest c w hb ht hc hw => ?_⟩
  · rw [exec_modifyConfig_read f hs hb ht hc hw, Course.runStages_writePhase_discrete _ (by simp) rfl,
      Course.runStages_nil (by simp [bundleReadFrames]) (by simp)]
    simp [Course.res, bundleReadFrames, bundleWriteFrames, frameRead_last, frameWrite_last, loadTx_loadTx]
  · rw [exec_modifyConfig f hs hb, Course.runStages_readPhase_batched _ (by simp) ht, ← hc,
      keepTransformed_state c w s rfl hw, Course.runStages_writePhase_batched _ (by simp) rfl,
      Course.runStages_nil (by simp) (by simp)]
    simp [Course.res, loadTx_loadTx (bundleWriteFrames w).flatten bundleReadFrames.flatten s.tx (Nat.le_refl 8)]
  · refine ⟨_, exec_modifyConfig f hs hb, (Course.failedAfter_readPhase _ hl ?_ ht).facts ?_ ?_⟩ <;>
      simp [Course.res, Function.comp_def]
  · refine ⟨_, exec_modifyConfig_read f hs hb ht hc hw, (Course.failedAfter_writePhase [] hl ?_ rfl).facts ?_ ?_⟩ <;>
      simp [Course.res, bundleReadFrames, Function.comp_def]
  · refine ⟨_, exec_modifyConfig f hs hb, ?_⟩
    rw [Course.runStages_readPhase_batchedErr _ (by simp) ht]
    simp [Course.res, cleared_st]
  · refine ⟨_, exec_modifyConfig f hs hb, ?_⟩
    rw [Course.runStages_readPhase_batched _ (by simp) ht, ← hc, keepTransformed_state c w s rfl hw,
      Course.runStages_writePhase_batchedErr _ (by simp) rfl]
    simp [Course.res]

end Sys2Proof.Machine
end

section
/-!
AWAKEN and SLEEP (R303, R304) from IDLE and in a later step, and the wire forms: one exchange by itself (R145, R146, R150).
-/

namespace Sys2Proof.Machine

/-! ### The two stages of a power request on given answers -/

theorem complete_ok (s : State) :
    complete .ok false s = { s with
      phase := .idle, res := { s.res with err := .ok, fault := aggregate s.res.st s.res.nframes } } := by
  simp [complete]

theorem complete_pin (s : State) :
    complete .pin false s = { s with
      phase := .idle, res := { s.res with err := .pin, fault := aggregate s.res.st s.res.nframes } } := by
  simp [complete]

section
variable {s : State} {l : PinLevel} {wait : Params → Nat} {x : SleepState} {ps : List PinReply} {ds : List DelayReply}

theorem runStages_pinStage_ok (gs : List Stage) (h : s.sleepPin = .ok :: ps) :
    runStages (pinStage l :: gs) s = runStages gs { s with
      k := s.k + 1#4, outstanding := none, sleepLatch := some l, history := s.history ++ [.pinSet l], sleepPin := ps } :=
  runStages_pinSet_ok (g := pinStage l) rfl h

theorem runStages_pinStage_err (gs : List Stage) (h : s.sleepPin = .err :: ps) :
    runStages (pinStage l :: gs) s = { s with
      phase := .idle, k := s.k + 1#4, outstanding := none, sleep := .unknown
      res := { s.res with err := .pin, fault := aggregate s.res.st s.res.nframes }
      history := s.history ++ [.pinSet l], sleepPin := ps } := by
  rw [runStages_pinSet_err (g := pinStage l) rfl h, complete_pin]
  rfl

theorem runStages_delayStage_done (h : s.delay = .done :: ds) :
    runStages [delayStage wait x] s = { s with
      phase := .idle, k := s.k + 1#4, outstanding := none, sleep := x
      res := { s.res with err := .ok, fault := aggregate s.res.st s.res.nframes }
      history := s.history ++ [.delay (wait s.params)], delay := ds } := by
  rw [runStages_delay_done (g := delayStage wait x) rfl h, runStages_nil, complete_ok]
  rfl

theorem runStages_delayStage_notYet (h : s.delay = .notYet :: ds) :
    runStages [delayStage wait x] s = { s with
      k := s.k + 1#4, outstanding := some (.delay (wait s.params))
      history := s.history ++ [.delay (wait s.params)], delay := ds } :=
  runStages_delay_notYet (g := delayStage wait x) rfl h

theorem runStages_power_done (hp : s.sleepPin = .ok :: ps) (hd : s.delay = .done :: ds) :
    runStages [pinStage l, delayStage wait x] s = { s with
      phase := .idle, k := s.k + 2#4, outstanding := none, sleep := x, sleepLatch := some l
      res := { s.res with err := .ok, fault := aggregate s.res.st s.res.nframes }
      history := s.history ++ [.pinSet l, .delay (wait s.params)], sleepPin := ps, delay := ds } := by
  rw [runStages_pinStage_ok _ hp, runStages_delayStage_done (ds := ds) (by exact hd)]
  simp [BitVec.add_assoc]

theorem runStages_power_notYet (hp : s.sleepPin = .ok :: ps) (hd : s.delay = .notYet :: ds) :
    runStages [pinStage l, delayStage wait x] s = { s with
      k := s.k + 2#4, outstanding := some (.delay (wait s.params)), sleepLatch := some l
      history := s.history ++ [.pinSet l, .delay (wait s.params)], sleepPin := ps, delay := ds } := by
  rw [runStages_pinStage_ok _ hp, runStages_delayStage_notYet (ds := ds) (by exact hd)]
  simp [BitVec.add_assoc]

end

/-! ### From IDLE -/

/-- The state in which a request without operands has been accepted. -/
def acceptedBare (o : BitVec 4) (s : State) : State :=
  { s with
    phase := .busy, k := 0#4, outstanding := none, req := latchFrom (offered s) o 0x00#5, res := Result.cleared
    offers := s.offers.tail }

theorem acceptRequest_bare {h : Header} {o : BitVec 4} (p : Program) {s : State} (hs : s.phase = .idle)
    (hv : validate h = none) (ho : headerOpc h = o) (ha : headerAddr h = 0x00#5) :
    acceptRequest (recordBare h (offered s)) p s = runStages (p.stages (acceptedBare o s)) (p.start (acceptedBare o s)) := by
  have hl : latch (recordBare h (offered s)) s = acceptedBare o s := by
    rw [acceptedBare, ← latchOf_recordBare ho ha]
    rfl
  rw [acceptRequest_valid (r := recordBare h (offered s)) p hs hv, hl]

/-- The stages of a power request: none where it is a no-op (R301). -/
def powerRun (l : PinLevel) (wait : Params → Nat) (x : SleepState) (s : State) : List Stage :=
  if s.params.hasSleepPin = false ∨ s.sleep = x then [] else [pinStage l, delayStage wait x]

theorem exec_awaken {s : State} (hs : s.phase = .idle) :
    exec .awaken s = .next (runStages (powerRun .high Params.tWakeUs .awake s) (acceptedBare 0x8#4 s)) :=
  congrArg Host.Outcome.next (acceptRequest_bare awakenProgram hs validate_awaken (by decide) (by decide))

theorem exec_sleep {s : State} (hs : s.phase = .idle) :
    exec .sleep s = .next (runStages (powerRun .low Params.tSleepUs .asleep s) (acceptedBare 0x9#4 s)) :=
  congrArg Host.Outcome.next (acceptRequest_bare sleepProgram hs validate_sleep (by decide) (by decide))

theorem powerRun_noop {l : PinLevel} {wait : Params → Nat} {x : SleepState} {s : State}
    (h : s.params.hasSleepPin = false ∨ s.sleep = x) : powerRun l wait x s = [] := if_pos h

theorem powerRun_acts {l : PinLevel} {wait : Params → Nat} {x : SleepState} {s : State}
    (hp : s.params.hasSleepPin = true) (hx : s.sleep ≠ x) : powerRun l wait x s = [pinStage l, delayStage wait x] :=
  if_neg (by simp [hp, hx])

/-- Settles O23: no stage, or the pin set and the delay, on every answer to either. -/
theorem awakenDrivesThePinAndWaits : Obligations.AwakenDrivesThePinAndWaits := by
  intro s hs
  rw [exec_awaken hs]
  refine ⟨fun p => rfl, refusesAddress hs (by decide) (by decide), fun h => ?_, fun ps ds hp hx hps hds => ?_,
    fun ps ds hp hx hps hds => ?_, fun ps hp hx hps => ?_⟩
  · rw [powerRun_noop h, runStages_nil, complete_ok]
    rfl
  · rw [powerRun_acts hp hx, runStages_power_done (s := acceptedBare _ s) hps hds]
    rfl
  · rw [powerRun_acts hp hx, runStages_power_notYet (s := acceptedBare _ s) hps hds]
    rfl
  · rw [powerRun_acts hp hx, runStages_pinStage_err (s := acceptedBare _ s) _ hps]
    rfl

/-- Settles O24: the same with SLEEP's level, wait and state. -/
theorem sleepDrivesThePinAndWaits : Obligations.SleepDrivesThePinAndWaits := by
  intro s hs
  rw [exec_sleep hs]
  refine ⟨fun p => rfl, refusesAddress hs (by decide) (by decide), fun h => ?_, fun ps ds hp hx hps hds => ?_,
    fun ps ds hp hx hps hds => ?_, fun ps hp hx hps => ?_⟩
  · rw [powerRun_noop h, runStages_nil, complete_ok]
    rfl
  · rw [powerRun_acts hp hx, runStages_power_done (s := acceptedBare _ s) hps hds]
    rfl
  · rw [powerRun_acts hp hx, runStages_power_notYet (s := acceptedBare _ s) hps hds]
    rfl
  · rw [powerRun_acts hp hx, runStages_pinStage_err (s := acceptedBare _ s) _ hps]
    rfl

/-! ### In a later step -/

theorem PowerCode.unique {o : BitVec 4} {l l' : PinLevel} {wait wait' : Params → Nat} {x x' : SleepState}
    (h : PowerCode o l wait x) (h' : PowerCode o l' wait' x') : l' = l ∧ wait' = wait ∧ x' = x := by
  cases h <;> cases h' <;> exact ⟨rfl, rfl, rfl⟩

section
variable {s : State} {l : PinLevel} {wait : Params → Nat} {x : SleepState} {gs : List Stage} {ps : List PinReply}
  {ds : List DelayReply}

theorem Waiting.step_pin_ok (hw : Waiting (pinStage l) gs s) (h : s.sleepPin = .ok :: ps) :
    step s = .next (runStages gs { s with outstanding := none, sleepLatch := some l, sleepPin := ps }) := by
  have hA : awaitAnswer ((pinStage l).event s) s = .answered { s with outstanding := none, sleepPin := ps } := by
    simp only [pinStage, awaitAnswer, nextPinReply_cons h, takePinReply_cons h, clearOutstanding]
  rw [hw.step_eq, hA]
  rfl

theorem Waiting.step_pin_err (hw : Waiting (pinStage l) gs s) (h : s.sleepPin = .err :: ps) :
    step s = .next { s with
      phase := .idle, outstanding := none, sleep := .unknown, sleepPin := ps
      res := { s.res with err := .pin, fault := aggregate s.res.st s.res.nframes } } := by
  have hA : awaitAnswer ((pinStage l).event s) s
      = .failed .pin false { s with outstanding := none, sleep := .unknown, sleepPin := ps } := by
    simp only [pinStage, awaitAnswer, nextPinReply_cons h, takePinReply_cons h, recordFailedPin]
  rw [hw.step_eq, hA, afterAnswer, complete_pin]

theorem Waiting.step_delay_done (hw : Waiting (delayStage wait x) [] s) (h : s.delay = .done :: ds) :
    step s = .next { s with
      phase := .idle, outstanding := none, sleep := x, delay := ds
      res := { s.res with err := .ok, fault := aggregate s.res.st s.res.nframes } } := by
  have hA : awaitAnswer ((delayStage wait x).event s) s = .answered { s with outstanding := none, delay := ds } := by
    simp only [delayStage, awaitAnswer, nextDelayReply_cons h, takeDelayReply_cons h, clearOutstanding]
  rw [hw.step_eq, hA, afterAnswer, runStages_nil, complete_ok]
  rfl

end

/-- A power request that waits for its pin set stands at its first stage, one that waits for its delay at its second. -/
inductive PowerWaiting (l : PinLevel) (wait : Params → Nat) (x : SleepState) (s : State) : Prop
  | pin (hw : Waiting (pinStage l) [delayStage wait x] s) (hk : s.k = 1#4) (ho : s.outstanding = some (.pinSet l))
  | delay (hw : Waiting (delayStage wait x) [] s) (ho : s.outstanding = some (.delay (wait s.params)))

theorem powerWaiting {l : PinLevel} {wait : Params → Nat} {x : SleepState} {s : State} (hi : SequencerInv s)
    (hs : s.phase = .busy) (code : PowerCode s.req.opc l wait x) : PowerWaiting l wait x s := by
  obtain ⟨g, gs, hw, -⟩ := waiting_of_inv hi hs
  obtain ⟨pre, hpl, hk⟩ := hw.place
  cases hpl with
  | register h8 h9 => exact absurd code.opc (not_or.2 ⟨h8, h9⟩)
  | pin code' =>
    obtain ⟨rfl, rfl, rfl⟩ := code.unique code'
    exact .pin hw (BitVec.eq_of_toNat_eq hk) hw.out
  | delay code' =>
    obtain ⟨rfl, rfl, rfl⟩ := code.unique code'
    exact .delay hw hw.out

/-- Settles O55: the answer to the delay, and the answers to the pin set and to the delay after it. -/
theorem aBusyPowerRequestGoesOn : Obligations.ABusyPowerRequestGoesOn := by
  intro s l us x hi hs hcode
  obtain ⟨wait, code, rfl⟩ : ∃ wait, PowerCode s.req.opc l wait x ∧ us = wait s.params := by
    rcases hcode with ⟨ho, rfl, rfl, rfl⟩ | ⟨ho, rfl, rfl, rfl⟩
    · exact ⟨_, ho ▸ .awaken, rfl⟩
    · exact ⟨_, ho ▸ .sleep, rfl⟩
  cases powerWaiting hi hs code with
  | pin hw hk ho =>
    refine ⟨fun _ h => by simp [ho] at h, fun ps ds _ hp hd => ?_, fun ps ds _ hp hd => ?_, fun ps _ hp => ?_⟩
    · rw [hw.step_pin_ok hp, runStages_delayStage_done (ds := ds) (by exact hd)]
      simp [hk]
    · rw [hw.step_pin_ok hp, runStages_delayStage_notYet (ds := ds) (by exact hd)]
      simp [hk]
    · rw [hw.step_pin_err hp]
  | delay hw ho =>
    refine ⟨fun ds _ hd => ?_, fun _ _ h => by simp [ho] at h, fun _ _ h => by simp [ho] at h, fun _ h => by simp [ho] at h⟩
    rw [hw.step_delay_done hd]

/-! ### The wire forms (R145, R146, R150) -/

section
variable {sent : List Byte} {s : State} {rest : List BusReply}

theorem exchangeOnce_ok {rx : Bytes8} (hl : sent.length = 2) (h : s.transport = .ok rx :: rest) :
    exchangeOnce sent s = { s with
      k := s.k + 1#4, outstanding := none, tx := loadTx sent s.tx, rx := loadRx 2 rx s.rx
      res := { s.res with nexch := s.res.nexch + 1#4, nframes := s.res.nframes + 1#4,
                          st := s.res.st.setIfInBounds s.res.nframes.toNat (some rx[0]) }
      asleepAccess := markAfterExchange s
      history := s.history ++ [.exchange sent], transport := rest } := by
  have ht : (issue (.exchange sent) s).transport = .ok rx :: rest := h
  simp only [exchangeOnce, awaitAnswer, nextBusReply_cons ht, takeBusReply_cons ht, hl]
  rfl

theorem exchangeOnce_err {wrote : Bool} (hw : hasWriteFrame sent = wrote) (h : s.transport = .err :: rest) :
    exchangeOnce sent s = { s with
      phase := .idle, k := s.k + 1#4, outstanding := none, tx := loadTx sent s.tx
      res := { s.res with err := .transport, xidx := s.res.nexch, fault := aggregate s.res.st s.res.nframes,
                          dsu := s.res.dsu || wrote }
      asleepAccess := markAfterExchange s
      history := s.history ++ [.exchange sent], transport := rest } := by
  have ht : (issue (.exchange sent) s).transport = .err :: rest := h
  simp only [exchangeOnce, awaitAnswer, nextBusReply_cons ht, takeBusReply_cons ht, hw]
  rfl

end

/-- Settles O26: one exchange of one frame, answered or failed. -/
theorem wireFormsAreOneExchange : Obligations.WireFormsAreOneExchange := by
  intro a d i sent s hi
  obtain ⟨hx, hl, hw⟩ : exec i s = .next (exchangeOnce sent s) ∧ sent.length = 2
      ∧ hasWriteFrame sent = decide (i = .wireWrite a d) := by
    rcases hi with ⟨rfl, rfl⟩ | ⟨rfl, rfl⟩
    · exact ⟨rfl, rfl, (hasWriteFrame_frameRead a.toNat).trans (by simp)⟩
    · exact ⟨rfl, rfl, (hasWriteFrame_frameWrite a.toNat d).trans (by simp)⟩
  exact ⟨fun rx rest h => by rw [hx, exchangeOnce_ok hl h], fun rest h => by rw [hx, exchangeOnce_err hw h]⟩

end Sys2Proof.Machine
end
